-- ==== Sys2Proof/Word.lean ====
section
/-! DEFINITION. The two words of the block: a byte of a stream or buffer, and the 32-bit checksum word (00_scope.md R6, R7). -/

namespace Sys2Proof

/-- A byte: 8 bits, bit 7 the most significant (R6). -/
abbrev Byte := BitVec 8

/-- A 32-bit unsigned word: the checksum (R6, R104). -/
abbrev Word32 := BitVec 32

/-- A byte sequence: index 0 is the oldest byte, the first received or the next to transmit (R7). -/
abbrev Bytes := List Byte

end Sys2Proof
end

