-- ==== Sys2Proof/Config.lean ====
section
/-! DEFINITION. The implementation parameters of 00_scope.md R5: the fixed constants, the types of the decided policies, and the
OPEN parameters as opaque constants. The decided values themselves (CRC_FN, NONHEX_META_POLICY, HS_REPLY_WHEN_BUSY) stand in
Sys2Proof/Machine/Codec.lean and Sys2Proof/Machine/Flags.lean, beside the operations that read them. -/

namespace Sys2Proof.Config

/-- ASCII `"`, the byte a delimiter is made of (R58). -/
abbrev quote : Byte := 0x22#8

/-- `DELIM`: the three bytes 0x22 0x22 0x22 (R5, R58). -/
abbrev delim : Bytes := [0x22#8, 0x22#8, 0x22#8]

/-- `DELIM_LEN` (R5). -/
abbrev delimLen : Nat := 3

/-- `HS_BYTE`, the handshake marker 0x04 (R5, R91). -/
abbrev hsByte : Byte := 0x04#8

/-- `RBRACE`, ASCII `}` = 0x7D (R5; the code is G1 of 93_implementation_defined.md). -/
abbrev rbrace : Byte := 0x7D#8

/-- `MIN_META_LEN` (R5, R95). -/
abbrev minMetaLen : Nat := 8

/-- `CRC_HEX_LEN` (R5). -/
abbrev crcHexLen : Nat := 8

/-- `NONHEX_META_POLICY`: what happens to eight or more metadata bytes whose first eight are not all hexadecimal digits
(R5, R96, decision D10). -/
inductive NonhexMetaPolicy where
  /-- the message is delivered unchecked -/
  | pass
  /-- the frame is treated as a checksum mismatch -/
  | drop
  deriving DecidableEq, Repr

/-- `HS_REPLY_WHEN_BUSY`: what a handshake queues while a frame is in flight (R5, R128, decision D8). -/
inductive HsReplyWhenBusy where
  /-- no reply is queued -/
  | skip
  /-- the seven bytes are appended behind the frame in flight -/
  | append
  deriving DecidableEq, Repr

/-- `WAIT_FOR_START_FRAME`, OPEN (R5, D18): the spec gives no value, so nothing in Lean can evaluate it (log entry 3). -/
opaque waitForStartFrame : Bool

/-- `MAX_FRAME_SIZE`, OPEN (R5, D18): the spec gives no value, so nothing in Lean can evaluate it (log entry 3). -/
opaque maxFrameSize : Nat

/-- `LINE`, OPEN, without behavioural effect: it labels the driver and console events (R5, R17, R167; log entry 21). -/
opaque line : Nat

/-- The bytes that a read past the end of a byte sequence finds, numbered by the draws of State: the spec states no value for them,
so nothing in Lean can evaluate one (log entry 26). -/
opaque freeByte : Nat → Byte

end Sys2Proof.Config
end

