-- ==== Sys2Proof/Machine/Operands.lean ====
section
/-! DEFINITION. Operand assembly (30_encoding.md section 2, 40_delimiter_detector.md, 42_checksum.md): the delimiter scan, the
split point, and the conversions between a 32-bit word and eight hexadecimal digits. Pure functions of byte sequences. -/

namespace Sys2Proof.Machine

open Sys2Proof.Config

/-- FIND_DELIM (R80): the offset of the leftmost `DELIM`, scanning from index 0. -/
def findDelim : Bytes → Option Nat
  | [] => none
  | b :: rest => if delim.isPrefixOf (b :: rest) then some 0 else (findDelim rest).map (· + 1)

/-- SPLIT_META (R64, R93): the length that is left when the bytes after the last `}` are taken off; 0 if there is no `}`. -/
def splitMeta (f : Bytes) : Nat :=
  (f.reverse.dropWhile (· != rbrace)).length

/-- The value of one hexadecimal digit, either case (R65, R107). -/
def hexDigit (c : Byte) : Option Nat :=
  if 0x30 ≤ c.toNat ∧ c.toNat ≤ 0x39 then some (c.toNat - 0x30)
  else if 0x61 ≤ c.toNat ∧ c.toNat ≤ 0x66 then some (c.toNat - 0x57)
  else if 0x41 ≤ c.toNat ∧ c.toNat ≤ 0x46 then some (c.toNat - 0x37)
  else none

/-- The loop of HEXPARSE8 (R107): one digit shifts the value by a nibble. -/
def hexAccumulate (v : Word32) : Bytes → Option Word32
  | [] => some v
  | c :: rest =>
    match hexDigit c with
    | none => none
    | some d => hexAccumulate ((v <<< 4) ||| BitVec.ofNat 32 d) rest

/-- HEXPARSE8 (R107), for a sequence of exactly eight bytes. -/
def hexParse8 (h : Bytes) : Option Word32 := hexAccumulate 0#32 h

/-- One lowercase hexadecimal digit (R106). -/
def hexChar (d : BitVec 4) : Byte :=
  if d.toNat < 10 then BitVec.ofNat 8 (0x30 + d.toNat) else BitVec.ofNat 8 (0x61 + (d.toNat - 10))

/-- Nibble `i` of a word, the most significant first: bits `31-4i : 28-4i` (R106). -/
def nibble (v : Word32) (i : Nat) : BitVec 4 := v.extractLsb' (28 - 4 * i) 4

/-- HEX8 (R106): eight lowercase digits, the most significant nibble first (R37, D12). -/
def hex8 (v : Word32) : Bytes := (List.range 8).map fun i => hexChar (nibble v i)

/-- `MemRead(buf, i, n)` (R8): a read that does not consume. -/
def memRead (buf : Bytes) (i n : Nat) : Bytes := (buf.drop i).take n

/-- `n` bytes that the spec states no value for, from draw `draws` on (log entry 26). -/
def freeBytes (draws n : Nat) : Bytes := (List.range n).map fun j => freeByte (draws + j)

/-- How many of the first `n` bytes a sequence does not have. -/
def missing (buf : Bytes) (n : Nat) : Nat := n - buf.length

/-- `MemRead(buf, 0, n)` where `n` may exceed `len(buf)`: the bytes that are there, and free bytes past the end (log entry 26). -/
def readPast (draws : Nat) (buf : Bytes) (n : Nat) : Bytes := memRead buf 0 n ++ freeBytes draws (missing buf n)

/-- `MemWrite(buf, bytes)` (R8): append at the young end, the only write a buffer has. -/
def memWrite (buf bytes : Bytes) : Bytes := buf ++ bytes

/-- `consume(buf, n)` (R8): prefix removal. -/
def consume (buf : Bytes) (n : Nat) : Bytes := buf.drop n

end Sys2Proof.Machine
end

