-- ==== Sys2Proof/Machine/Codec.lean ====
section
/-! DEFINITION. The pure half of the Frame Codec: checksum (42_checksum.md), classification and decoding of a span
(41_frame_decoder.md), frame encoding (43_frame_encoder.md). -/

namespace Sys2Proof.Machine

open Sys2Proof.Config

/-- One step of the checksum register (R103): a logical shift right, with the polynomial if bit 0 was set. -/
def crcBit (r : Word32) : Word32 :=
  if r.getLsbD 0 then (r >>> 1) ^^^ 0xEDB88320#32 else r >>> 1

/-- One byte into the checksum register: into the low 8 bits, then eight steps (R103). -/
def crcByte (r : Word32) (b : Byte) : Word32 :=
  Nat.iterate crcBit 8 (r ^^^ b.zeroExtend 32)

/-- The running form of the register over a sequence, in ascending offset (R103, R105). -/
def crcUpdate (r : Word32) (s : Bytes) : Word32 := s.foldl crcByte r

/-- CRC32 (R103): inverted on entry and on exit. -/
def crc32 (s : Bytes) : Word32 := crcUpdate 0xFFFFFFFF#32 s ^^^ 0xFFFFFFFF#32

/-- The parameter `CRC_FN` with its decided value (R5, R103, D11). -/
def crcFn (s : Bytes) : Word32 := crc32 s

/-- The decided value of `NONHEX_META_POLICY` (R5, D10). -/
def nonhexMetaPolicy : NonhexMetaPolicy := .pass

/-- What CLASSIFY answers (R90). -/
inductive SpanClass where
  | handshake | data
  deriving DecidableEq, Repr

/-- CLASSIFY (R90, R91): a handshake is exactly the one byte 0x04. -/
def classify (f : Bytes) : SpanClass := if f = [hsByte] then .handshake else .data

/-- What CHECK answers (R109). -/
inductive CheckVerdict where
  | matches | mismatch | unparsable | absent
  deriving DecidableEq, Repr

/-- CHECK (R109): the verdict on a message and its metadata. -/
def check (msg metadata : Bytes) : CheckVerdict :=
  if metadata.length < minMetaLen then .absent
  else
    match hexParse8 (metadata.take crcHexLen) with
    | none => .unparsable
    | some v => if crcFn msg = v then .matches else .mismatch

/-- What DECODE_DATA answers (R96). -/
inductive Decoded where
  | deliver (msg : Bytes)
  | dropBadChecksum
  | dropSilent
  deriving DecidableEq, Repr

/-- DECODE_DATA (R96) under a given `NONHEX_META_POLICY`. -/
def decodeDataWith (policy : NonhexMetaPolicy) (f : Bytes) : Decoded :=
  let m := splitMeta f
  if m = 0 then .dropSilent
  else
    match check (f.take m) (f.drop m) with
    | .matches => .deliver (f.take m)
    | .absent => .deliver (f.take m)
    | .mismatch => .dropBadChecksum
    | .unparsable => if policy = .pass then .deliver (f.take m) else .dropBadChecksum

/-- DECODE_DATA (R96) under the decided policy. -/
def decodeData (f : Bytes) : Decoded := decodeDataWith nonhexMetaPolicy f

/-- ENCODE_FRAME (R60, R114): nothing is escaped (R98). -/
def encodeFrame (payload : Bytes) : Bytes := delim ++ payload ++ hex8 (crcFn payload) ++ delim

/-- ENCODE_HANDSHAKE (R59, R117): seven bytes, no checksum. -/
def encodeHandshake : Bytes := delim ++ [hsByte] ++ delim

end Sys2Proof.Machine
end

