-- ==== Sys2Proof/Syntax.lean ====
section
/-! DEFINITION. The syntax: the output events (R10), the error kinds (R71), the instructions, one constructor per row of
spec/opcode_table.json (R74), and the port items in which the environment presents them (R69). -/

namespace Sys2Proof

/-- The output events of 00_scope.md R10, in the order of their codes (R70). Only these thirteen exist. -/
inductive Event where
  /-- OPEN: the first handshake since connect was observed. -/
  | opened
  /-- CLOSED: CLOSE ran. -/
  | closed
  /-- FRAME_RECEIVED(msg): a valid data frame's message, passed by value (R161). -/
  | frameReceived (msg : Bytes)
  /-- FRAME_SENT: a user frame was fully accepted by the driver. -/
  | frameSent
  /-- CONSOLE_SUSPEND. -/
  | consoleSuspend
  /-- CONSOLE_RESUME. -/
  | consoleResume
  /-- SET_DISPATCHER(on). -/
  | setDispatcherOn
  /-- SET_DISPATCHER(off). -/
  | setDispatcherOff
  /-- RX_ENABLE. -/
  | rxEnable
  /-- REQUEST_DISPATCH(from_interrupt); the block only emits false. -/
  | requestDispatch (fromInterrupt : Bool)
  /-- WRITE(bytes): the bytes the driver accepted. -/
  | write (bytes : Bytes)
  /-- DIAG_WARN(CHECKSUM). -/
  | diagWarnChecksum
  /-- DIAG_ERROR(OVERSIZE). -/
  | diagErrorOversize
  deriving DecidableEq, Repr

/-- The error kinds of 30_encoding.md R71 and 60_exceptions.md R151 to R154. -/
inductive ErrorKind where
  | checksumMismatch
  | oversize
  | sendRejected
  | setupFailure
  deriving DecidableEq, Repr

/-- The instructions: one constructor per row of spec/opcode_table.json, in the table's order. -/
inductive Instr where
  -- wire formats (R58 to R62)
  | delim
  | hsFrame
  | dataFrame (payload : Bytes)
  | emptySpan
  | dataSpanRx (message metadata : Bytes)
  -- commands (R69)
  | create (wait : Bool) (max : Nat)
  | connect
  | send (payload : Bytes) (consoleOnLine : Bool)
  | close
  | destroy
  /-- `txTaken` absent: the driver accepts everything it is offered (R72). -/
  | dispatch (rx : Bytes) (txAvail : Nat) (txTaken : Option Nat)
  /-- The codes 11x; `x` is bit 0. -/
  | reservedCmd (x : BitVec 1)
  -- internal operations (R74)
  | findDelim
  | extractOne (k : Nat)
  | extractFrames
  | classify (f : Bytes)
  | splitMeta (f : Bytes)
  | decodeData (f : Bytes)
  | crc32 (s : Bytes)
  | hex8 (v : Word32)
  | hexParse8 (h : Bytes)
  | check (msg metadata : Bytes)
  | encodeFrame (payload : Bytes)
  | encodeHandshake
  | rxAppend (rx : Bytes)
  | rxFrame (f : Bytes)
  | rxHandshake
  | rxData (f : Bytes)
  | postRx
  | txDrain (txAvail txTaken : Nat)
  -- events (R70)
  | evOpen
  | evClosed
  | evFrameReceived (msg : Bytes)
  | evFrameSent
  | evConsoleSuspend
  | evConsoleResume
  | evSetDispatcherOn
  | evSetDispatcherOff
  | evRxEnable
  | evRequestDispatch (fromInterrupt : Bool)
  | evWrite (bytes : Bytes)
  | evDiagWarnChecksum
  | evDiagErrorOversize
  -- error kinds (R71)
  | errChecksumMismatch
  | errOversize
  | errSendRejected
  | errSetupFailure
  deriving DecidableEq, Repr

/-- The column `format` of the opcode table. -/
inductive Format where
  | wire | cmd | internal | event | error
  deriving DecidableEq, Repr

/-- The format of each row of the opcode table (R74). -/
def Instr.format : Instr → Format
  | .delim => .wire
  | .hsFrame => .wire
  | .dataFrame _ => .wire
  | .emptySpan => .wire
  | .dataSpanRx _ _ => .wire
  | .create _ _ => .cmd
  | .connect => .cmd
  | .send _ _ => .cmd
  | .close => .cmd
  | .destroy => .cmd
  | .dispatch _ _ _ => .cmd
  | .reservedCmd _ => .cmd
  | .findDelim => .internal
  | .extractOne _ => .internal
  | .extractFrames => .internal
  | .classify _ => .internal
  | .splitMeta _ => .internal
  | .decodeData _ => .internal
  | .crc32 _ => .internal
  | .hex8 _ => .internal
  | .hexParse8 _ => .internal
  | .check _ _ => .internal
  | .encodeFrame _ => .internal
  | .encodeHandshake => .internal
  | .rxAppend _ => .internal
  | .rxFrame _ => .internal
  | .rxHandshake => .internal
  | .rxData _ => .internal
  | .postRx => .internal
  | .txDrain _ _ => .internal
  | .evOpen => .event
  | .evClosed => .event
  | .evFrameReceived _ => .event
  | .evFrameSent => .event
  | .evConsoleSuspend => .event
  | .evConsoleResume => .event
  | .evSetDispatcherOn => .event
  | .evSetDispatcherOff => .event
  | .evRxEnable => .event
  | .evRequestDispatch _ => .event
  | .evWrite _ => .event
  | .evDiagWarnChecksum => .event
  | .evDiagErrorOversize => .event
  | .errChecksumMismatch => .error
  | .errOversize => .error
  | .errSendRejected => .error
  | .errSetupFailure => .error

/-- An operand as a port carries it: the spec types operands and gives them no bits (R69, 95_test_vectors.md Part 3). -/
inductive Operand where
  | flag (b : Bool)
  | num (n : Nat)
  | word (v : Word32)
  | bytes (bs : Bytes)
  deriving DecidableEq, Repr

/-- The names of the eighteen internal operations (R74): they have no external encoding, so a port item names them. -/
inductive InternalOp where
  | findDelim | extractOne | extractFrames | classify | splitMeta | decodeData | crc32 | hex8 | hexParse8 | check
  | encodeFrame | encodeHandshake | rxAppend | rxFrame | rxHandshake | rxData | postRx | txDrain
  deriving DecidableEq, Repr

/-- One presented operation, before decoding: a command code of the command port with its operands (R69), the bytes of a wire
format (R58 to R62), an internal operation by name, an event code with its argument (R70), or an error code (R71). Log entry 1. -/
inductive PortItem where
  | wire (bytes : Bytes)
  | cmd (code : BitVec 3) (args : List Operand)
  | internal (op : InternalOp) (args : List Operand)
  | event (code : BitVec 4) (args : List Operand)
  | error (code : BitVec 3)
  deriving DecidableEq, Repr

/-- The kind of port an item is presented on. -/
def PortItem.format : PortItem → Format
  | .wire _ => .wire
  | .cmd _ _ => .cmd
  | .internal _ _ => .internal
  | .event _ _ => .event
  | .error _ => .error

/-- Why a port item decodes to no instruction. -/
inductive DecodeError where
  /-- The operands are not those the code's row lists. -/
  | wrongOperands
  /-- Event codes 1101 to 1111: reserved (R70). -/
  | reservedEventCode
  /-- Error code 000: no error (R71). -/
  | noError
  /-- Error codes 101 to 111: reserved (R71). -/
  | reservedErrorCode
  deriving DecidableEq, Repr

end Sys2Proof
end

