-- ==== Sys2Proof/Machine/State.lean ====
section
/-! DEFINITION. The state: the Channel record of 10_state.md R13 and the model's own input and output fields, the reasons a step
can stop, and the state after reset (R30). -/

namespace Sys2Proof.Machine

/-- The Channel record: "The Channel state is exactly this record. Nothing else is state." (R13). -/
structure Channel where
  /-- `wait_for_start_frame`, immutable configuration (R15). -/
  waitForStartFrame : Bool
  /-- `max_frame_size`, immutable configuration, in bytes, unbounded (R16, D18). -/
  maxFrameSize : Nat
  /-- `waiting_for_start_frame` (R18). -/
  waitingForStartFrame : Bool
  /-- `connected` (R19). -/
  connected : Bool
  /-- `sending` (R20). -/
  sending : Bool
  /-- `sending_user_frame` (R21). -/
  sendingUserFrame : Bool
  /-- `resume_uart` (R21). -/
  resumeUart : Bool
  /-- `rx_buf`, index 0 the oldest received byte (R26). -/
  rxBuf : Bytes
  /-- `tx_buf`, index 0 the next byte to transmit (R27). -/
  txBuf : Bytes
  /-- `armed`: the dispatch entry point is registered with the driver (R22). -/
  armed : Bool
  /-- `alive`: from CREATE to DESTROY (R23). -/
  alive : Bool
  deriving DecidableEq, Repr

/-- The result of an operation (R8 `return`, R9). -/
inductive OpResult where
  /-- The operation returns nothing. -/
  | none
  /-- SEND: success or failure (R132). -/
  | accepted (ok : Bool)
  /-- FIND_DELIM (R80). -/
  | offset (k : Option Nat)
  /-- CLASSIFY (R90). -/
  | spanClass (c : SpanClass)
  /-- SPLIT_META (R93). -/
  | splitPoint (m : Nat)
  /-- DECODE_DATA (R96). -/
  | decoded (d : Decoded)
  /-- CRC32 (R103). -/
  | word (v : Word32)
  /-- HEX8, ENCODE_FRAME, ENCODE_HANDSHAKE (R106, R114, R117). -/
  | bytes (bs : Bytes)
  /-- HEXPARSE8 (R107). -/
  | parsed (v : Option Word32)
  /-- CHECK (R109). -/
  | verdict (v : CheckVerdict)
  deriving DecidableEq, Repr

/-- The whole state: the Channel, and the model's own view of the environment (log entries 1, 2 and 26). -/
structure State where
  /-- The Channel record. -/
  chan : Channel
  /-- The operations the environment will present, the next one first (R24). -/
  port : List PortItem
  /-- Every output event emitted, oldest first (R9, R10). -/
  trace : List Event
  /-- The result of the last operation (R9). -/
  result : OpResult
  /-- Every error kind raised, oldest first (R155). -/
  errors : List ErrorKind
  /-- How many free bytes have been drawn: the model's own counter (log entry 26). -/
  draws : Nat
  deriving DecidableEq, Repr

/-- The block has no fault: no error kind transfers control (R157) and no byte sequence faults (R67). Log entry 18. -/
inductive Fault where
  deriving DecidableEq, Repr

/-- The reasons for having no step (R186): safe, since nothing is claimed of a refused run. -/
inductive Refusal where
  /-- An instruction whose meaning is not written; raised by exec only. Safe. -/
  | notModelled (mnemonic : String)
  /-- R23, R186: any operation but CREATE on a Channel that is not alive; raised by every meaning but those of CREATE and
  SETUP_FAILURE. Safe. -/
  | channelNotAlive
  /-- R186: CREATE on a Channel that is alive. Safe. -/
  | channelAlive
  /-- R122, R186: DISPATCH, one of its phases, or a wire format's arrival while `armed = false`. Safe. -/
  | notArmed
  /-- R134, R186: DESTROY while `armed = true`. Safe. -/
  | stillArmed
  /-- R186: DISPATCH or TX_DRAIN with `tx_taken` above what was offered. Safe. -/
  | tookMoreThanOffered
  /-- R69, R186: the command codes 110 and 111, always. Safe. -/
  | reservedCommand
  /-- R154: SETUP_FAILURE on a Channel that has been created; log entry 12. Safe. -/
  | setupIsOver
  /-- The port item decodes to no instruction; raised by step; log entry 15. Safe. -/
  | undecodable (e : DecodeError)
  deriving DecidableEq, Repr

/-- The Channel right after CREATE with the given parameters (R30, R176). -/
def Channel.created (wait : Bool) (max : Nat) : Channel :=
  { waitForStartFrame := wait, maxFrameSize := max, waitingForStartFrame := false, connected := false, sending := false,
    sendingUserFrame := false, resumeUart := false, rxBuf := [], txBuf := [], armed := false, alive := true }

/-- The machine right after reset: the reset of this block is CREATE with the OPEN parameters (R30), and nothing has been
presented, emitted or drawn (log entries 1, 2, 3, 26). -/
def State.reset : State :=
  { chan := Channel.created Config.waitForStartFrame Config.maxFrameSize, port := [], trace := [], result := .none, errors := [],
    draws := 0 }

end Sys2Proof.Machine
end

