-- ==== Sys2Proof/Machine/Flags.lean ====
section
/-! DEFINITION. The flag computations: the conditions the rules compute from the Channel's flags and buffer lengths, the named
FSM states of 10_state.md R25, and the sinks of the events (R10). -/

namespace Sys2Proof.Machine

open Sys2Proof.Config

/-- The decided value of `HS_REPLY_WHEN_BUSY` (R5, D8). -/
def hsReplyWhenBusy : HsReplyWhenBusy := .skip

/-- SEND succeeds: connected and not sending (R20, R132). -/
def sendAllowed (c : Channel) : Bool := c.connected && !c.sending

/-- A handshake queues a reply: not sending, or the policy appends behind the frame in flight (R128). -/
def replyDue (policy : HsReplyWhenBusy) (c : Channel) : Bool := !c.sending || policy == .append

/-- The oversize test, strict: `len(rx_buf) > max_frame_size + 2 × DELIM_LEN` (R16, R126). -/
def oversized (c : Channel) : Bool := decide (c.rxBuf.length > c.maxFrameSize + 2 * delimLen)

/-- The waiting-trim test, strict: `waiting_for_start_frame` and more than `DELIM_LEN` bytes held (R18, R126). -/
def trimDue (c : Channel) : Bool := c.waitingForStartFrame && decide (c.rxBuf.length > delimLen)

/-- The bytes offered to the driver's write: `min(len(tx_buf), tx_avail)` (R41, R127). -/
def offered (c : Channel) (avail : Nat) : Nat := min c.txBuf.length avail

/-- The guard of the transmit phase: a frame is in flight and the driver has room (R20, R122). -/
def drains (c : Channel) (avail : Nat) : Bool := c.sending && decide (0 < avail)

/-- The named states of the state machine (R25). -/
inductive FsmState where
  | destroyed | disconnected | connecting | connectedIdle | connectedSendingReply | connectedSendingUser
  deriving DecidableEq, Repr

/-- The named state as a function of the flags (R25). -/
def fsmState (c : Channel) : FsmState :=
  if c.alive = false then .destroyed
  else if c.armed = false then .disconnected
  else if c.connected = false then .connecting
  else if c.sending = false then .connectedIdle
  else if c.sendingUserFrame = false then .connectedSendingReply
  else .connectedSendingUser

/-- Where an event goes (R10). -/
inductive Sink where
  | rpcLayer | console | serialDriver | diagnosticLog
  deriving DecidableEq, Repr

/-- The sink of each event (R10). -/
def eventSink : Event → Sink
  | .opened => .rpcLayer
  | .closed => .rpcLayer
  | .frameReceived _ => .rpcLayer
  | .frameSent => .rpcLayer
  | .consoleSuspend => .console
  | .consoleResume => .console
  | .setDispatcherOn => .serialDriver
  | .setDispatcherOff => .serialDriver
  | .rxEnable => .serialDriver
  | .requestDispatch _ => .serialDriver
  | .write _ => .serialDriver
  | .diagWarnChecksum => .diagnosticLog
  | .diagErrorOversize => .diagnosticLog

/-- The line number that labels an event: the driver's and the console's events carry `LINE` (R17, R167). -/
def eventLine (e : Event) : Option Nat :=
  match eventSink e with
  | .console => some Config.line
  | .serialDriver => some Config.line
  | .rpcLayer => none
  | .diagnosticLog => none

/-- The bytes an event puts on the TX stream (R34). -/
def eventTx : Event → Bytes
  | .write bytes => bytes
  | _ => []

/-- The TX stream: the concatenation of the WRITE events (R34, R47 item 4). -/
def txStream (trace : List Event) : Bytes := trace.flatMap eventTx

end Sys2Proof.Machine
end

