-- ==== Sys2Proof/Machine/Ops.lean ====
section
/-! DEFINITION. The shared operations: what an operation does to a Channel (R9), the primitives `emit` and `raise` (R8), the
phases of DISPATCH (44_channel_fsm.md), and the guards every meaning stands behind (R186). -/

namespace Sys2Proof.Machine

open Sys2Proof.Config

/-- What an operation does: the new Channel state, its output trace (R9), and the error kinds it raised (R155). -/
structure Effect where
  chan : Channel
  trace : List Event
  errors : List ErrorKind
  deriving DecidableEq, Repr

/-- No output. -/
def quiet (c : Channel) : Effect := { chan := c, trace := [], errors := [] }

/-- `emit E` (R8). -/
def emit (e : Event) (c : Channel) : Effect := { chan := c, trace := [e], errors := [] }

/-- One thing after another: the second sees the Channel the first left (R47), the outputs in the same order (R9). -/
def Effect.andThen (e : Effect) (f : Channel → Effect) : Effect :=
  match f e.chan with
  | { chan := c, trace := t, errors := r } => { chan := c, trace := e.trace ++ t, errors := e.errors ++ r }

/-- `raise <ErrorKind>` (R8, R151 to R155), the one way an error kind takes effect: it emits its diagnostic, applies its state
effect and goes on; it saves nothing and transfers control nowhere (R157). -/
def raise : ErrorKind → Channel → Effect
  | .checksumMismatch, c => { chan := c, trace := [.diagWarnChecksum], errors := [.checksumMismatch] }
  | .oversize, c => { chan := { c with rxBuf := [] }, trace := [.diagErrorOversize], errors := [.oversize] }
  | .sendRejected, c => { chan := c, trace := [], errors := [.sendRejected] }
  | .setupFailure, c => { chan := c, trace := [], errors := [.setupFailure] }

/-! ## Receive phase -/

/-- RX_APPEND (R123). -/
def rxAppend (rx : Bytes) (c : Channel) : Effect := quiet { c with rxBuf := memWrite c.rxBuf rx }

/-- RX_HANDSHAKE (R128) under a given `HS_REPLY_WHEN_BUSY`. -/
def rxHandshakeWith (policy : HsReplyWhenBusy) (c : Channel) : Effect :=
  { chan :=
      { c with
        waitingForStartFrame := false
        connected := true
        txBuf := if replyDue policy c then memWrite c.txBuf encodeHandshake else c.txBuf
        sending := if replyDue policy c then true else c.sending }
    trace := if c.connected then [] else [.opened]
    errors := [] }

/-- RX_HANDSHAKE (R128) under the decided policy. -/
def rxHandshake (c : Channel) : Effect := rxHandshakeWith hsReplyWhenBusy c

/-- RX_DATA (R125). -/
def rxData (f : Bytes) (c : Channel) : Effect :=
  match decodeData f with
  | .deliver msg => emit (.frameReceived msg) c
  | .dropBadChecksum => raise .checksumMismatch c
  | .dropSilent => quiet c

/-- RX_FRAME (R124): the gate on `waiting_for_start_frame` is decision D7. -/
def rxFrame (f : Bytes) (c : Channel) : Effect :=
  match classify f with
  | .handshake => rxHandshake c
  | .data => if c.waitingForStartFrame then quiet c else rxData f c

/-- `consume(rx_buf, n)` (R8). -/
def consumeRx (n : Nat) (c : Channel) : Effect := quiet { c with rxBuf := consume c.rxBuf n }

/-- The body of EXTRACT_ONE (R82) for a span that has been read: it is handled before it is removed. -/
def extractSpan (f : Bytes) (k : Nat) (c : Channel) : Effect :=
  (if k = 0 then quiet c else rxFrame f c).andThen (consumeRx (k + delimLen))

/-- EXTRACT_ONE (R82) at an offset inside the buffer. -/
def extractOne (k : Nat) (c : Channel) : Effect := extractSpan (memRead c.rxBuf 0 k) k c

/-- The loop of EXTRACT_FRAMES (R84), with a bound on its iterations. -/
def extractLoop : Nat → Channel → Effect
  | 0, c => quiet c
  | n + 1, c =>
    match findDelim c.rxBuf with
    | none => quiet c
    | some k => (extractOne k c).andThen (extractLoop n)

/-- EXTRACT_FRAMES (R84): "the loop runs at most `len(rx_buf) / 3` times". -/
def extractFrames (c : Channel) : Effect := extractLoop (c.rxBuf.length / delimLen) c

/-- The waiting trim of POST_RX (R126): keep the last three bytes. -/
def trimWaiting (c : Channel) : Effect :=
  if trimDue c then consumeRx (c.rxBuf.length - delimLen) c else quiet c

/-- POST_RX (R126): the oversize test, then the waiting trim. -/
def postRx (c : Channel) : Effect :=
  (if oversized c then raise .oversize c else quiet c).andThen trimWaiting

/-- The receive phase of DISPATCH (R122): skipped when there is no input (R41, D13). -/
def receivePhase (rx : Bytes) (c : Channel) : Effect :=
  if rx = [] then quiet c else ((rxAppend rx c).andThen extractFrames).andThen postRx

/-! ## Transmit phase -/

/-- The completion of TX_DRAIN (R127): `sending` cleared, then the console resumed, then FRAME_SENT. -/
def txComplete (c : Channel) : Effect :=
  if c.txBuf = [] then
    { chan := { c with sending := false, resumeUart := false, sendingUserFrame := false }
      trace := (if c.resumeUart then [.consoleResume] else []) ++ (if c.sendingUserFrame then [.frameSent] else [])
      errors := [] }
  else quiet c

/-- The driver's answer in TX_DRAIN (R127): the accepted bytes are written and removed; no WRITE of no bytes (D28). -/
def txWrite (taken : Nat) (c : Channel) : Effect :=
  { chan := { c with txBuf := consume c.txBuf taken }
    trace := if taken = 0 then [] else [.write (memRead c.txBuf 0 taken)]
    errors := [] }

/-- TX_DRAIN (R127). -/
def txDrain (taken : Nat) (c : Channel) : Effect := (txWrite taken c).andThen txComplete

/-- The transmit phase of DISPATCH (R122): nothing is written unless a frame is in flight and the driver has room (R20). -/
def transmitPhase (avail taken : Nat) (c : Channel) : Effect :=
  if drains c avail then txDrain taken c else quiet c

/-! ## Commands -/

/-- CREATE (R176). -/
def createChannel (wait : Bool) (max : Nat) : Effect :=
  quiet
    { waitForStartFrame := wait, maxFrameSize := max, waitingForStartFrame := false, connected := false, sending := false,
      sendingUserFrame := false, resumeUart := false, rxBuf := [], txBuf := [], armed := false, alive := true }

/-- CONNECT (R131). -/
def connectChannel (c : Channel) : Effect :=
  if c.connected then quiet c
  else
    { chan := { c with waitingForStartFrame := c.waitForStartFrame, armed := true }
      trace := [.setDispatcherOn, .rxEnable]
      errors := [] }

/-- The accepted SEND (R132). -/
def queueUserFrame (payload : Bytes) (consoleOnLine : Bool) (c : Channel) : Effect :=
  { chan :=
      { c with
        txBuf := memWrite c.txBuf (encodeFrame payload)
        sending := true
        sendingUserFrame := true
        resumeUart := if consoleOnLine then true else c.resumeUart }
    trace := (if consoleOnLine then [.consoleSuspend] else []) ++ [.requestDispatch false]
    errors := [] }

/-- CLOSE (R133): both buffers and `waiting_for_start_frame` stay (D15). -/
def closeChannel (c : Channel) : Effect :=
  { chan :=
      { c with armed := false, connected := false, sending := false, sendingUserFrame := false, resumeUart := false }
    trace := [.setDispatcherOff] ++ (if c.resumeUart then [.consoleResume] else []) ++ [.closed]
    errors := [] }

/-- DESTROY (R134). -/
def destroyChannel (c : Channel) : Effect := quiet { c with rxBuf := [], txBuf := [], alive := false }

/-! ## Outcomes -/

/-- The outcome of a meaning. -/
abbrev Out := Host.Outcome State Fault Refusal

/-- The state after an operation with this effect and result (R9). -/
def State.commit (s : State) (e : Effect) (r : OpResult) : State :=
  { s with chan := e.chan, trace := s.trace ++ e.trace, result := r, errors := s.errors ++ e.errors }

/-- The operation completes. -/
def done (s : State) (e : Effect) (r : OpResult) : Out := .next (s.commit e r)

/-- The operation completes, having drawn `n` free bytes (log entry 26). -/
def doneDrawing (s : State) (n : Nat) (e : Effect) (r : OpResult) : Out := done { s with draws := s.draws + n } e r

/-- The precondition of every operation but CREATE (R23, R186). -/
def whenAlive (s : State) (o : Out) : Out := if s.chan.alive then o else .refused .channelNotAlive

/-- The precondition of DISPATCH and of what runs inside it (R122, R186). -/
def whenArmed (s : State) (o : Out) : Out := whenAlive s (if s.chan.armed then o else .refused .notArmed)

/-- A pure operation: it reads and writes no field of the Channel, emits nothing and returns its result. -/
def answer (s : State) (r : OpResult) : Out := whenAlive s (done s (quiet s.chan) r)

/-- A phase of DISPATCH, run by itself (R130; log entry 5). -/
def phase (s : State) (f : Channel → Effect) : Out := whenArmed s (done s (f s.chan) .none)

/-- `emit E` by itself (R8; log entry 10). -/
def emitAlone (s : State) (e : Event) : Out := whenAlive s (done s (emit e s.chan) .none)

/-- DISPATCH (R122): the receive phase, then the transmit phase on the Channel it left. The driver's answer may not exceed what
was offered, "with `tx_buf` taken after the receive phase" (R186); an absent answer is all that was offered (R72). -/
def dispatchChannel (rx : Bytes) (avail : Nat) (taken : Option Nat) (s : State) : Out :=
  whenArmed s
    (let e := receivePhase rx s.chan
     let n := offered e.chan avail
     let t := taken.getD n
     if t ≤ n then done s (e.andThen (transmitPhase avail t)) .none else .refused .tookMoreThanOffered)

/-- A wire format arriving on the RX stream as one chunk: the pseudo-operation FEED (R73; log entry 8). -/
def arrive (bytes : Bytes) (s : State) : Out := dispatchChannel bytes 0 none s

end Sys2Proof.Machine
end

