-- ==== Sys2Proof/Machine/ChannelFsm.lean ====
section
/-! DEFINITION. The meanings of DISPATCH's phases (44_channel_fsm.md R123 to R128), each run by itself (R130; log entry 5). -/

namespace Sys2Proof.Machine

open Sys2Proof.Config

/-- RX_APPEND (R123). -/
def execRxAppend (rx : Bytes) (s : State) : Out := phase s (rxAppend rx)

/-- RX_FRAME (R124). -/
def execRxFrame (f : Bytes) (s : State) : Out := phase s (rxFrame f)

/-- RX_HANDSHAKE (R128). -/
def execRxHandshake (s : State) : Out := phase s rxHandshake

/-- RX_DATA (R125). -/
def execRxData (f : Bytes) (s : State) : Out := phase s (rxData f)

/-- POST_RX (R126). -/
def execPostRx (s : State) : Out := phase s postRx

/-- TX_DRAIN (R127): the driver accepts at most what it is offered (R186); with `sending = false` nothing is written (R20; log
entry 7). -/
def execTxDrain (avail taken : Nat) (s : State) : Out :=
  whenArmed s
    (if taken ≤ offered s.chan avail then done s (transmitPhase avail taken s.chan) .none
     else .refused .tookMoreThanOffered)

end Sys2Proof.Machine
end

