-- ==== Sys2Proof/Machine/Checksum.lean ====
section
/-! DEFINITION. The meanings of the checksum operations (42_checksum.md): pure functions of their operands. -/

namespace Sys2Proof.Machine

open Sys2Proof.Config

/-- CRC32 (R103): the function `CRC_FN`. -/
def execCrc32 (bytes : Bytes) (s : State) : Out := answer s (.word (crcFn bytes))

/-- HEX8 (R106). -/
def execHex8 (v : Word32) (s : State) : Out := answer s (.bytes (hex8 v))

/-- HEXPARSE8 (R107). Its operand line has "length exactly 8"; the pseudocode reads `h[0]` to `h[7]`, so bytes past the eighth are not
read, and those a shorter operand does not have are free (log entries 24, 26). -/
def execHexParse8 (h : Bytes) (s : State) : Out :=
  whenAlive s
    (doneDrawing s (missing h crcHexLen) (quiet s.chan) (.parsed (hexParse8 (readPast s.draws h crcHexLen))))

/-- CHECK (R109). -/
def execCheck (msg metadata : Bytes) (s : State) : Out := answer s (.verdict (check msg metadata))

end Sys2Proof.Machine
end

