-- ==== Sys2Proof/Machine/Commands.lean ====
section
/-! DEFINITION. The meanings of the commands (30_encoding.md R69): what the host and the driver present. -/

namespace Sys2Proof.Machine

open Sys2Proof.Config

/-- CREATE (R176): refused on a Channel that is alive (R186). -/
def execCreate (wait : Bool) (max : Nat) (s : State) : Out :=
  if s.chan.alive then .refused .channelAlive else done s (createChannel wait max) .none

/-- CONNECT (R131). -/
def execConnect (s : State) : Out := whenAlive s (done s (connectChannel s.chan) .none)

/-- SEND (R132): rejected with the result false when not connected or already sending (R137, R153). -/
def execSend (payload : Bytes) (consoleOnLine : Bool) (s : State) : Out :=
  whenAlive s
    (if sendAllowed s.chan then done s (queueUserFrame payload consoleOnLine s.chan) (.accepted true)
     else done s (raise .sendRejected s.chan) (.accepted false))

/-- CLOSE (R133). -/
def execClose (s : State) : Out := whenAlive s (done s (closeChannel s.chan) .none)

/-- DESTROY (R134): refused while armed (R186). -/
def execDestroy (s : State) : Out :=
  whenAlive s (if s.chan.armed then .refused .stillArmed else done s (destroyChannel s.chan) .none)

/-- DISPATCH (R122). -/
def execDispatch (rx : Bytes) (avail : Nat) (taken : Option Nat) (s : State) : Out := dispatchChannel rx avail taken s

/-- The reserved command codes 110 and 111: refused always (R69, R186). -/
def execReservedCmd (_x : BitVec 1) (_s : State) : Out := .refused .reservedCommand

end Sys2Proof.Machine
end

