-- ==== Sys2Proof/Machine/Detector.lean ====
section
/-! DEFINITION. The meanings of the delimiter detector's operations (40_delimiter_detector.md). -/

namespace Sys2Proof.Machine

open Sys2Proof.Config

/-- FIND_DELIM (R80): the operand is always `rx_buf`. -/
def execFindDelim (s : State) : Out := answer s (.offset (findDelim s.chan.rxBuf))

/-- EXTRACT_ONE (R82). Its operand line has `k` found by FIND_DELIM; at any other `k` the same pseudocode runs, and the bytes of a span
that would reach past the end of `rx_buf` are free (log entries 6, 26). -/
def execExtractOne (k : Nat) (s : State) : Out :=
  whenArmed s
    (doneDrawing s (missing s.chan.rxBuf k) (extractSpan (readPast s.draws s.chan.rxBuf k) k s.chan) .none)

/-- EXTRACT_FRAMES (R84). -/
def execExtractFrames (s : State) : Out := phase s extractFrames

end Sys2Proof.Machine
end

