-- ==== Sys2Proof/Machine/Errors.lean ====
section
/-! DEFINITION. The meanings of the error kinds (60_exceptions.md R151 to R154): `raise` of the kind (R8), by itself (log entry 11). -/

namespace Sys2Proof.Machine

open Sys2Proof.Config

/-- CHECKSUM_MISMATCH (R151). -/
def execErrChecksumMismatch (s : State) : Out := whenAlive s (done s (raise .checksumMismatch s.chan) .none)

/-- OVERSIZE (R152). -/
def execErrOversize (s : State) : Out := whenAlive s (done s (raise .oversize s.chan) .none)

/-- SEND_REJECTED (R153): the result `false`. -/
def execErrSendRejected (s : State) : Out := whenAlive s (done s (raise .sendRejected s.chan) (.accepted false))

/-- SETUP_FAILURE (R154): setup aborts before any CREATE and reports the failure upward; no Channel is created. It has no meaning
for a Channel that exists (log entry 12). -/
def execErrSetupFailure (s : State) : Out :=
  if s.chan.alive then .refused .setupIsOver else done s (raise .setupFailure s.chan) .none

end Sys2Proof.Machine
end

