-- ==== Sys2Proof/Machine/Events.lean ====
section
/-! DEFINITION. The meanings of the output events (30_encoding.md R70): `emit` of the event (R8), by itself (log entry 10). -/

namespace Sys2Proof.Machine

open Sys2Proof.Config

/-- OPEN (R10, R70). -/
def execEvOpen (s : State) : Out := emitAlone s .opened

/-- CLOSED (R10, R70). -/
def execEvClosed (s : State) : Out := emitAlone s .closed

/-- FRAME_RECEIVED (R10, R70). The block emits it with `len(msg) ≥ 1` only; by itself it is emitted with the argument it is presented
with (log entry 10). -/
def execEvFrameReceived (msg : Bytes) (s : State) : Out := emitAlone s (.frameReceived msg)

/-- FRAME_SENT (R10, R70). -/
def execEvFrameSent (s : State) : Out := emitAlone s .frameSent

/-- CONSOLE_SUSPEND (R10, R70). -/
def execEvConsoleSuspend (s : State) : Out := emitAlone s .consoleSuspend

/-- CONSOLE_RESUME (R10, R70). -/
def execEvConsoleResume (s : State) : Out := emitAlone s .consoleResume

/-- SET_DISPATCHER(on) (R10, R70). -/
def execEvSetDispatcherOn (s : State) : Out := emitAlone s .setDispatcherOn

/-- SET_DISPATCHER(off) (R10, R70). -/
def execEvSetDispatcherOff (s : State) : Out := emitAlone s .setDispatcherOff

/-- RX_ENABLE (R10, R70). -/
def execEvRxEnable (s : State) : Out := emitAlone s .rxEnable

/-- REQUEST_DISPATCH (R10, R70). The block emits it with `from_interrupt = false` only; by itself it is emitted with the argument it is
presented with (log entry 10). -/
def execEvRequestDispatch (fromInterrupt : Bool) (s : State) : Out := emitAlone s (.requestDispatch fromInterrupt)

/-- WRITE (R10, R70): a WRITE of no bytes is not emitted (D28), so it completes with no event. -/
def execEvWrite (bytes : Bytes) (s : State) : Out :=
  if bytes = [] then answer s .none else emitAlone s (.write bytes)

/-- DIAG_WARN(CHECKSUM) (R10, R70). -/
def execEvDiagWarnChecksum (s : State) : Out := emitAlone s .diagWarnChecksum

/-- DIAG_ERROR(OVERSIZE) (R10, R70). -/
def execEvDiagErrorOversize (s : State) : Out := emitAlone s .diagErrorOversize

end Sys2Proof.Machine
end

