-- ==== Sys2Proof/Machine/FrameDecoder.lean ====
section
/-! DEFINITION. The meanings of the frame decoder's operations (41_frame_decoder.md): pure functions of the span. -/

namespace Sys2Proof.Machine

open Sys2Proof.Config

/-- CLASSIFY (R90). -/
def execClassify (f : Bytes) (s : State) : Out := answer s (.spanClass (classify f))

/-- SPLIT_META (R93). -/
def execSplitMeta (f : Bytes) (s : State) : Out := answer s (.splitPoint (splitMeta f))

/-- DECODE_DATA (R96). -/
def execDecodeData (f : Bytes) (s : State) : Out := answer s (.decoded (decodeData f))

end Sys2Proof.Machine
end

