-- ==== Sys2Proof/Machine/FrameEncoder.lean ====
section
/-! DEFINITION. The meanings of the frame encoder's operations (43_frame_encoder.md): pure functions. -/

namespace Sys2Proof.Machine

open Sys2Proof.Config

/-- ENCODE_FRAME (R114). -/
def execEncodeFrame (payload : Bytes) (s : State) : Out := answer s (.bytes (encodeFrame payload))

/-- ENCODE_HANDSHAKE (R117). -/
def execEncodeHandshake (s : State) : Out := answer s (.bytes encodeHandshake)

end Sys2Proof.Machine
end

