-- ==== Sys2Proof/Machine/Wire.lean ====
section
/-! DEFINITION. The meanings of the wire formats (30_encoding.md R58 to R62): the bytes arrive on the RX stream (log entry 8). -/

namespace Sys2Proof.Machine

open Sys2Proof.Config

/-- DELIM (R58): a delimiter arrives and closes the span held in `rx_buf`. -/
def execDelim (s : State) : Out := arrive delim s

/-- HS_FRAME (R59): a handshake frame arrives, the pseudo-operation RXHS (R73). -/
def execHsFrame (s : State) : Out := arrive (delim ++ [hsByte] ++ delim) s

/-- DATA_FRAME (R60): a frame as a transmitter builds it arrives. -/
def execDataFrame (payload : Bytes) (s : State) : Out := arrive (encodeFrame payload) s

/-- EMPTY_SPAN (R61, R83): no byte arrives; an empty span at the front of `rx_buf` is skipped and its closing delimiter removed
(R82, `k = 0`), and where there is none nothing happens (log entry 9). -/
def execEmptySpan (s : State) : Out :=
  phase s (fun c => if findDelim c.rxBuf = some 0 then extractOne 0 c else quiet c)

/-- DATA_SPAN_RX (R62): message, metadata and the closing delimiter arrive. -/
def execDataSpanRx (message metadata : Bytes) (s : State) : Out := arrive (message ++ metadata ++ delim) s

end Sys2Proof.Machine
end

