-- ==== Sys2Proof/Machine/Dispatch.lean ====
section
/-! DEFINITION. The dispatch: one arm per instruction, in the order of the opcode table. -/

namespace Sys2Proof.Machine

def exec (i : Instr) (s : State) : Host.Outcome State Fault Refusal :=
  match i with
  | .delim => Sys2Proof.Machine.execDelim s
  | .hsFrame => Sys2Proof.Machine.execHsFrame s
  | .dataFrame payload => Sys2Proof.Machine.execDataFrame payload s
  | .emptySpan => Sys2Proof.Machine.execEmptySpan s
  | .dataSpanRx message metadata => Sys2Proof.Machine.execDataSpanRx message metadata s
  | .create wait max => Sys2Proof.Machine.execCreate wait max s
  | .connect => Sys2Proof.Machine.execConnect s
  | .send payload consoleOnLine => Sys2Proof.Machine.execSend payload consoleOnLine s
  | .close => Sys2Proof.Machine.execClose s
  | .destroy => Sys2Proof.Machine.execDestroy s
  | .dispatch rx txAvail txTaken => Sys2Proof.Machine.execDispatch rx txAvail txTaken s
  | .reservedCmd x => Sys2Proof.Machine.execReservedCmd x s
  | .findDelim => Sys2Proof.Machine.execFindDelim s
  | .extractOne k => Sys2Proof.Machine.execExtractOne k s
  | .extractFrames => Sys2Proof.Machine.execExtractFrames s
  | .classify f => Sys2Proof.Machine.execClassify f s
  | .splitMeta f => Sys2Proof.Machine.execSplitMeta f s
  | .decodeData f => Sys2Proof.Machine.execDecodeData f s
  | .crc32 bs => Sys2Proof.Machine.execCrc32 bs s
  | .hex8 v => Sys2Proof.Machine.execHex8 v s
  | .hexParse8 h => Sys2Proof.Machine.execHexParse8 h s
  | .check msg metadata => Sys2Proof.Machine.execCheck msg metadata s
  | .encodeFrame payload => Sys2Proof.Machine.execEncodeFrame payload s
  | .encodeHandshake => Sys2Proof.Machine.execEncodeHandshake s
  | .rxAppend rx => Sys2Proof.Machine.execRxAppend rx s
  | .rxFrame f => Sys2Proof.Machine.execRxFrame f s
  | .rxHandshake => Sys2Proof.Machine.execRxHandshake s
  | .rxData f => Sys2Proof.Machine.execRxData f s
  | .postRx => Sys2Proof.Machine.execPostRx s
  | .txDrain txAvail txTaken => Sys2Proof.Machine.execTxDrain txAvail txTaken s
  | .evOpen => Sys2Proof.Machine.execEvOpen s
  | .evClosed => Sys2Proof.Machine.execEvClosed s
  | .evFrameReceived msg => Sys2Proof.Machine.execEvFrameReceived msg s
  | .evFrameSent => Sys2Proof.Machine.execEvFrameSent s
  | .evConsoleSuspend => Sys2Proof.Machine.execEvConsoleSuspend s
  | .evConsoleResume => Sys2Proof.Machine.execEvConsoleResume s
  | .evSetDispatcherOn => Sys2Proof.Machine.execEvSetDispatcherOn s
  | .evSetDispatcherOff => Sys2Proof.Machine.execEvSetDispatcherOff s
  | .evRxEnable => Sys2Proof.Machine.execEvRxEnable s
  | .evRequestDispatch fromInterrupt => Sys2Proof.Machine.execEvRequestDispatch fromInterrupt s
  | .evWrite bytes => Sys2Proof.Machine.execEvWrite bytes s
  | .evDiagWarnChecksum => Sys2Proof.Machine.execEvDiagWarnChecksum s
  | .evDiagErrorOversize => Sys2Proof.Machine.execEvDiagErrorOversize s
  | .errChecksumMismatch => Sys2Proof.Machine.execErrChecksumMismatch s
  | .errOversize => Sys2Proof.Machine.execErrOversize s
  | .errSendRejected => Sys2Proof.Machine.execErrSendRejected s
  | .errSetupFailure => Sys2Proof.Machine.execErrSetupFailure s

end Sys2Proof.Machine
end

