-- ==== Sys2Proof/WellFormed.lean ====
section
/-! DEFINITION. Which instructions are well formed: whose fields are the ones their own encoding gives back. What depends on the
Channel (R186: `tx_taken`, `armed`, `alive`) is checked by the meanings. -/

namespace Sys2Proof

open Sys2Proof.Config Sys2Proof.Machine

/-- A data span in front of its closing delimiter, cut at its split point (R62): the leftmost `DELIM` is the closing one, the
span is not the handshake, and the metadata begin after the last `}`. -/
def isDataSpan (message metadata : Bytes) : Bool :=
  !(message ++ metadata).isEmpty &&
  (findDelim (message ++ metadata ++ delim) == some (message ++ metadata).length) &&
  (classify (message ++ metadata) == .data) &&
  (splitMeta (message ++ metadata) == message.length)

/-- What the encodings demand of an instruction's fields: a data span in front of its delimiter is cut at its split point (R62). No
other row's encoding restricts its operands; what an operand line of a rule leaves out runs by the rule's pseudocode (log
entry 24). -/
def Instr.wellFormed : Instr → Bool
  | .dataSpanRx message metadata => isDataSpan message metadata
  | .classify _ => true
  | .splitMeta _ => true
  | .decodeData _ => true
  | .hexParse8 _ => true
  | .check _ _ => true
  | .rxAppend _ => true
  | .rxFrame _ => true
  | .rxData _ => true
  | .txDrain _ _ => true
  | .evFrameReceived _ => true
  | .evRequestDispatch _ => true
  | .evWrite _ => true
  | .delim => true
  | .hsFrame => true
  | .dataFrame _ => true
  | .emptySpan => true
  | .create _ _ => true
  | .connect => true
  | .send _ _ => true
  | .close => true
  | .destroy => true
  | .dispatch _ _ _ => true
  | .reservedCmd _ => true
  | .findDelim => true
  | .extractOne _ => true
  | .extractFrames => true
  | .crc32 _ => true
  | .hex8 _ => true
  | .encodeFrame _ => true
  | .encodeHandshake => true
  | .rxHandshake => true
  | .postRx => true
  | .evOpen => true
  | .evClosed => true
  | .evFrameSent => true
  | .evConsoleSuspend => true
  | .evConsoleResume => true
  | .evSetDispatcherOn => true
  | .evSetDispatcherOff => true
  | .evRxEnable => true
  | .evDiagWarnChecksum => true
  | .evDiagErrorOversize => true
  | .errChecksumMismatch => true
  | .errOversize => true
  | .errSendRejected => true
  | .errSetupFailure => true

end Sys2Proof
end

