-- ==== Sys2Proof/Decode.lean ====
section
/-! DEFINITION. The decoder, total on any port item and rejecting by name; the encoder, written from the same tables; and the
reading of a word of spec/opcode_table.json (30_encoding.md R58 to R62, R69 to R71, R74). -/

namespace Sys2Proof

open Sys2Proof.Config Sys2Proof.Machine

/-! ## Codes of the output trace (R70, R71) -/

/-- The event codes `ev[3:0]` (R70). -/
def eventCode : Event → BitVec 4
  | .opened => 0b0000#4
  | .closed => 0b0001#4
  | .frameReceived _ => 0b0010#4
  | .frameSent => 0b0011#4
  | .consoleSuspend => 0b0100#4
  | .consoleResume => 0b0101#4
  | .setDispatcherOn => 0b0110#4
  | .setDispatcherOff => 0b0111#4
  | .rxEnable => 0b1000#4
  | .requestDispatch _ => 0b1001#4
  | .write _ => 0b1010#4
  | .diagWarnChecksum => 0b1011#4
  | .diagErrorOversize => 0b1100#4

/-- The arguments of the event codes (R70). -/
def eventArgs : Event → List Operand
  | .frameReceived msg => [.bytes msg]
  | .requestDispatch fromInterrupt => [.flag fromInterrupt]
  | .write bytes => [.bytes bytes]
  | _ => []

/-- The error codes `err[2:0]` (R71): 000 is no error. -/
def errorCode : Option ErrorKind → BitVec 3
  | none => 0b000#3
  | some .checksumMismatch => 0b001#3
  | some .oversize => 0b010#3
  | some .sendRejected => 0b011#3
  | some .setupFailure => 0b100#3

/-! ## Decoding -/

/-- One wire format from its bytes (R58 to R62): nothing, `DELIM`, the handshake frame, a data frame as transmitted (its
checksum digits must be those of its payload, R60), or one data span with its closing delimiter, cut at its split point. Any
other bytes arrive too, "the receiver is total on any bytes" (R67): they are a DISPATCH of these bytes, the pseudo-operation
FEED (R73; log entry 8). -/
def decodeWire (w : Bytes) : Instr :=
  if w = [] then .emptySpan
  else if w = delim then .delim
  else if w = delim ++ [hsByte] ++ delim then .hsFrame
  else if w = encodeFrame ((w.drop delimLen).take (w.length - 14)) then
    .dataFrame ((w.drop delimLen).take (w.length - 14))
  else
    let f := w.take (w.length - delimLen)
    let m := splitMeta f
    if w = f ++ delim ∧ isDataSpan (f.take m) (f.drop m) = true then .dataSpanRx (f.take m) (f.drop m)
    else .dispatch w 0 none

/-- A command code with its operands (R69). -/
def decodeCmd (code : BitVec 3) (args : List Operand) : Except DecodeError Instr :=
  if code = 0b000#3 then
    match args with
    | [.flag wait, .num max] => .ok (.create wait max)
    | _ => .error .wrongOperands
  else if code = 0b001#3 then
    match args with
    | [] => .ok .connect
    | _ => .error .wrongOperands
  else if code = 0b010#3 then
    match args with
    | [.bytes payload, .flag consoleOnLine] => .ok (.send payload consoleOnLine)
    | _ => .error .wrongOperands
  else if code = 0b011#3 then
    match args with
    | [] => .ok .close
    | _ => .error .wrongOperands
  else if code = 0b100#3 then
    match args with
    | [] => .ok .destroy
    | _ => .error .wrongOperands
  else if code = 0b101#3 then
    match args with
    | [.bytes rx, .num avail] => .ok (.dispatch rx avail none)
    | [.bytes rx, .num avail, .num taken] => .ok (.dispatch rx avail (some taken))
    | _ => .error .wrongOperands
  else
    match args with
    | [] => .ok (.reservedCmd (code.extractLsb' 0 1))
    | _ => .error .wrongOperands

/-- An internal operation with its operands (R74). -/
def decodeInternal (op : InternalOp) (args : List Operand) : Except DecodeError Instr :=
  match op, args with
  | .findDelim, [] => .ok .findDelim
  | .extractOne, [.num k] => .ok (.extractOne k)
  | .extractFrames, [] => .ok .extractFrames
  | .classify, [.bytes f] => .ok (.classify f)
  | .splitMeta, [.bytes f] => .ok (.splitMeta f)
  | .decodeData, [.bytes f] => .ok (.decodeData f)
  | .crc32, [.bytes s] => .ok (.crc32 s)
  | .hex8, [.word v] => .ok (.hex8 v)
  | .hexParse8, [.bytes h] => .ok (.hexParse8 h)
  | .check, [.bytes msg, .bytes metadata] => .ok (.check msg metadata)
  | .encodeFrame, [.bytes payload] => .ok (.encodeFrame payload)
  | .encodeHandshake, [] => .ok .encodeHandshake
  | .rxAppend, [.bytes rx] => .ok (.rxAppend rx)
  | .rxFrame, [.bytes f] => .ok (.rxFrame f)
  | .rxHandshake, [] => .ok .rxHandshake
  | .rxData, [.bytes f] => .ok (.rxData f)
  | .postRx, [] => .ok .postRx
  | .txDrain, [.num avail, .num taken] => .ok (.txDrain avail taken)
  | _, _ => .error .wrongOperands

/-- An event code with its argument (R70). -/
def decodeEvent (code : BitVec 4) (args : List Operand) : Except DecodeError Instr :=
  if code = 0b0010#4 then
    match args with
    | [.bytes msg] => .ok (.evFrameReceived msg)
    | _ => .error .wrongOperands
  else if code = 0b1001#4 then
    match args with
    | [.flag fromInterrupt] => .ok (.evRequestDispatch fromInterrupt)
    | _ => .error .wrongOperands
  else if code = 0b1010#4 then
    match args with
    | [.bytes bytes] => .ok (.evWrite bytes)
    | _ => .error .wrongOperands
  else if args ≠ [] then .error .wrongOperands
  else if code = 0b0000#4 then .ok .evOpen
  else if code = 0b0001#4 then .ok .evClosed
  else if code = 0b0011#4 then .ok .evFrameSent
  else if code = 0b0100#4 then .ok .evConsoleSuspend
  else if code = 0b0101#4 then .ok .evConsoleResume
  else if code = 0b0110#4 then .ok .evSetDispatcherOn
  else if code = 0b0111#4 then .ok .evSetDispatcherOff
  else if code = 0b1000#4 then .ok .evRxEnable
  else if code = 0b1011#4 then .ok .evDiagWarnChecksum
  else if code = 0b1100#4 then .ok .evDiagErrorOversize
  else .error .reservedEventCode

/-- An error code (R71). -/
def decodeErrorCode (code : BitVec 3) : Except DecodeError Instr :=
  if code = 0b000#3 then .error .noError
  else if code = 0b001#3 then .ok .errChecksumMismatch
  else if code = 0b010#3 then .ok .errOversize
  else if code = 0b011#3 then .ok .errSendRejected
  else if code = 0b100#3 then .ok .errSetupFailure
  else .error .reservedErrorCode

/-- The decoder: an instruction, or a named rejection of a code that is no instruction's or of operands its row does not list. -/
def decode : PortItem → Except DecodeError Instr
  | .wire bytes => .ok (decodeWire bytes)
  | .cmd code args => decodeCmd code args
  | .internal op args => decodeInternal op args
  | .event code args => decodeEvent code args
  | .error code => decodeErrorCode code

/-! ## Encoding -/

/-- An event on the port: its code and its argument (R70). -/
def eventItem (e : Event) : PortItem := .event (eventCode e) (eventArgs e)

/-- The encoder (R58 to R62, R69 to R71). -/
def encode : Instr → PortItem
  | .delim => .wire delim
  | .hsFrame => .wire (delim ++ [hsByte] ++ delim)
  | .dataFrame payload => .wire (encodeFrame payload)
  | .emptySpan => .wire []
  | .dataSpanRx message metadata => .wire (message ++ metadata ++ delim)
  | .create wait max => .cmd 0b000#3 [.flag wait, .num max]
  | .connect => .cmd 0b001#3 []
  | .send payload consoleOnLine => .cmd 0b010#3 [.bytes payload, .flag consoleOnLine]
  | .close => .cmd 0b011#3 []
  | .destroy => .cmd 0b100#3 []
  | .dispatch rx avail none => .cmd 0b101#3 [.bytes rx, .num avail]
  | .dispatch rx avail (some taken) => .cmd 0b101#3 [.bytes rx, .num avail, .num taken]
  | .reservedCmd x => .cmd (0b11#2 ++ x) []
  | .findDelim => .internal .findDelim []
  | .extractOne k => .internal .extractOne [.num k]
  | .extractFrames => .internal .extractFrames []
  | .classify f => .internal .classify [.bytes f]
  | .splitMeta f => .internal .splitMeta [.bytes f]
  | .decodeData f => .internal .decodeData [.bytes f]
  | .crc32 s => .internal .crc32 [.bytes s]
  | .hex8 v => .internal .hex8 [.word v]
  | .hexParse8 h => .internal .hexParse8 [.bytes h]
  | .check msg metadata => .internal .check [.bytes msg, .bytes metadata]
  | .encodeFrame payload => .internal .encodeFrame [.bytes payload]
  | .encodeHandshake => .internal .encodeHandshake []
  | .rxAppend rx => .internal .rxAppend [.bytes rx]
  | .rxFrame f => .internal .rxFrame [.bytes f]
  | .rxHandshake => .internal .rxHandshake []
  | .rxData f => .internal .rxData [.bytes f]
  | .postRx => .internal .postRx []
  | .txDrain avail taken => .internal .txDrain [.num avail, .num taken]
  | .evOpen => eventItem .opened
  | .evClosed => eventItem .closed
  | .evFrameReceived msg => eventItem (.frameReceived msg)
  | .evFrameSent => eventItem .frameSent
  | .evConsoleSuspend => eventItem .consoleSuspend
  | .evConsoleResume => eventItem .consoleResume
  | .evSetDispatcherOn => eventItem .setDispatcherOn
  | .evSetDispatcherOff => eventItem .setDispatcherOff
  | .evRxEnable => eventItem .rxEnable
  | .evRequestDispatch fromInterrupt => eventItem (.requestDispatch fromInterrupt)
  | .evWrite bytes => eventItem (.write bytes)
  | .evDiagWarnChecksum => eventItem .diagWarnChecksum
  | .evDiagErrorOversize => eventItem .diagErrorOversize
  | .errChecksumMismatch => .error (errorCode (some .checksumMismatch))
  | .errOversize => .error (errorCode (some .oversize))
  | .errSendRejected => .error (errorCode (some .sendRejected))
  | .errSetupFailure => .error (errorCode (some .setupFailure))

/-! ## The words of spec/opcode_table.json -/

/-- The operands of a command whose operand words are all zero. -/
def zeroCmdArgs (code : BitVec 3) : List Operand :=
  if code = 0b000#3 then [.flag false, .num 0]
  else if code = 0b010#3 then [.bytes [], .flag false]
  else if code = 0b101#3 then [.bytes [], .num 0, .num 0]
  else []

/-- The argument of an event whose operand words are all zero: a byte sequence is the one zero byte, since FRAME_RECEIVED and
WRITE never carry an empty one (R10, D28). -/
def zeroEventArgs (code : BitVec 4) : List Operand :=
  if code = 0b0010#4 then [.bytes [0x00#8]]
  else if code = 0b1001#4 then [.flag false]
  else if code = 0b1010#4 then [.bytes [0x00#8]]
  else []

/-- The bytes of a word, the byte of bits 7..0 first. -/
def wordBytes (w : Nat) : Nat → Bytes
  | 0 => []
  | n + 1 => BitVec.ofNat 8 w :: wordBytes (w / 256) n

/-- The port item a table word stands for. A word of more than one byte is the bytes of a wire format and a word of no bits the
empty span; a word of one byte is a command code (below 8), or an event code that no command shares (8 to 15). Log entry 15. -/
def tableItem (nbits w : Nat) : PortItem :=
  if nbits = 0 then .wire []
  else if nbits ≤ 3 then .cmd (BitVec.ofNat 3 w) (zeroCmdArgs (BitVec.ofNat 3 w))
  else if nbits = 4 then .event (BitVec.ofNat 4 w) (zeroEventArgs (BitVec.ofNat 4 w))
  else if nbits ≤ 8 then
    if w < 8 then .cmd (BitVec.ofNat 3 w) (zeroCmdArgs (BitVec.ofNat 3 w))
    else if w < 16 then .event (BitVec.ofNat 4 w) (zeroEventArgs (BitVec.ofNat 4 w))
    else .wire (wordBytes w 1)
  else .wire (wordBytes w ((nbits + 7) / 8))

/-- The instruction the decoder reads from a table word of `nbits` bits. -/
def decodeTableWord (nbits w : Nat) : Option Instr :=
  match decode (tableItem nbits w) with
  | .ok i => some i
  | .error _ => none

end Sys2Proof
end

