-- ==== Sys2Proof/Machine/Fetch.lean ====
section
/-! DEFINITION. Taking the next operation the environment presents (R24; log entry 1). -/

namespace Sys2Proof.Machine

/-- The next operation, decoded, and the state with its item taken from the port; none when nothing is presented. -/
def fetch (s : State) : Option (Except DecodeError Instr × State) :=
  match s.port with
  | [] => none
  | item :: rest => some (decode item, { s with port := rest })

/-- The state in which the item is the next operation presented. -/
def present (item : PortItem) (s : State) : State := { s with port := item :: s.port }

end Sys2Proof.Machine
end

