-- ==== Sys2Proof/Machine/Step.lean ====
section
/-! DEFINITION. One step: the next operation the environment presents is decoded and run as one atomic operation (R9). -/

namespace Sys2Proof.Machine

/-- One step. With nothing presented the block "holds its state and does nothing" (R173; log entry 4); a code that is
no instruction's, or operands a row does not list, is refused by name. -/
def step (s : State) : Host.Outcome State Fault Refusal :=
  match fetch s with
  | none => .next s
  | some (.error e, _) => .refused (.undecodable e)
  | some (.ok i, s') => exec i s'

/-- The state in which the table word is the next operation presented (log entry 15). -/
def State.withFetchWord (s : State) (nbits w : Nat) : State := present (tableItem nbits w) s

end Sys2Proof.Machine
end

