-- ==== Sys2Proof/Machine/Script.lean ====
section
/-! DEFINITION. The script notation of 30_encoding.md R72 and the pseudo-operations of R73: a line of ASCII text is read as the
command it stands for, and a pseudo-operation is expanded into commands. -/

namespace Sys2Proof.Machine

open Sys2Proof.Config

/-! ## Pseudo-operations (R73) -/

/-- `FEED <bytes>`: `DISPATCH rx=<bytes> avail=0`. -/
def feed (bytes : Bytes) : Instr := .dispatch bytes 0 none

/-- `RXHS`: a handshake frame is fed. -/
def feedHandshake : Instr := feed encodeHandshake

/-- `PUMP <n>`: `DISPATCH rx='' avail=<n>`. -/
def pump (n : Nat) : Instr := .dispatch [] n none

/-- `DRAIN`: PUMP repeated; at most `len(tx_buf)` repetitions are needed. -/
def drainScript (n : Nat) (c : Channel) : List Instr := List.replicate c.txBuf.length (pump n)

/-- `RESET`: CREATE with the same parameters (R73), after the DESTROY that a Channel that is alive needs first (R177; log entry 23). -/
def resetScript (c : Channel) : List Instr :=
  (if c.alive then [.destroy] else []) ++ [.create c.waitForStartFrame c.maxFrameSize]

/-! ## Text (R72) -/

/-- The ASCII bytes of characters (R6, R7). -/
def ascii (cs : List Char) : Bytes := cs.map fun c => BitVec.ofNat 8 c.toNat

/-- A byte that stands for itself in a literal: printable ASCII but `'` and `\`. -/
def isPlain (b : Byte) : Bool :=
  decide (0x20 ≤ b.toNat) && decide (b.toNat ≤ 0x7E) && b != 0x27#8 && b != 0x5C#8

/-- The rest of a byte-string literal after its opening `'`: the bytes it denotes and the text after its closing `'`. -/
def readLiteral : Bytes → Option (Bytes × Bytes)
  | [] => none
  | b :: rest =>
    if b = 0x27#8 then some ([], rest)
    else if b = 0x5C#8 then
      match rest with
      | x :: h :: l :: rest' =>
        if x = 0x78#8 then
          match hexDigit h, hexDigit l with
          | some dh, some dl =>
            match readLiteral rest' with
            | some (bs, after) => some (BitVec.ofNat 8 (16 * dh + dl) :: bs, after)
            | none => none
          | _, _ => none
        else none
      | _ => none
    else if isPlain b then
      match readLiteral rest with
      | some (bs, after) => some (b :: bs, after)
      | none => none
    else none

/-- One byte of a literal: itself, or `\xHH`. -/
def literalByte (b : Byte) : Bytes :=
  if isPlain b then [b] else [0x5C#8, 0x78#8, hexChar (b.extractLsb' 4 4), hexChar (b.extractLsb' 0 4)]

/-- The byte-string literal of a byte sequence. -/
def writeLiteral (bs : Bytes) : Bytes := [0x27#8] ++ bs.flatMap literalByte ++ [0x27#8]

/-- A word of text after any spaces. -/
def readWord (word text : Bytes) : Option Bytes :=
  let t := text.dropWhile (· == 0x20#8)
  if word.isPrefixOf t then some (t.drop word.length) else none

/-- `<bytes>`: a literal after any spaces. -/
def readBytes (text : Bytes) : Option (Bytes × Bytes) :=
  match readWord [0x27#8] text with
  | some rest => readLiteral rest
  | none => none

/-- A decimal digit. -/
def isDigit (b : Byte) : Bool := decide (0x30 ≤ b.toNat) && decide (b.toNat ≤ 0x39)

/-- `<natural>`: one or more decimal digits. -/
def readNat (text : Bytes) : Option (Nat × Bytes) :=
  match text.takeWhile isDigit with
  | [] => none
  | ds => some (ds.foldl (fun n d => 10 * n + (d.toNat - 0x30)) 0, text.dropWhile isDigit)

/-- `<0|1>`. -/
def readFlag : Bytes → Option (Bool × Bytes)
  | 0x30#8 :: rest => some (false, rest)
  | 0x31#8 :: rest => some (true, rest)
  | _ => none

/-- Nothing but spaces is left. -/
def atEnd (text : Bytes) : Bool := text.all (· == 0x20#8)

/-- A line that is one word, such as `CONNECT`. -/
def readPlain (word : Bytes) (i : Instr) (text : Bytes) : Option Instr := do
  let rest ← readWord word text
  if atEnd rest then some i else none

/-- `CREATE wait=<0|1> max=<natural>`. -/
def readCreate (text : Bytes) : Option Instr := do
  let rest ← readWord (ascii ['C', 'R', 'E', 'A', 'T', 'E']) text
  let rest ← readWord (ascii ['w', 'a', 'i', 't', '=']) rest
  let (wait, rest) ← readFlag rest
  let rest ← readWord (ascii ['m', 'a', 'x', '=']) rest
  let (max, rest) ← readNat rest
  if atEnd rest then some (.create wait max) else none

/-- `SEND <bytes> console=<0|1>`. -/
def readSend (text : Bytes) : Option Instr := do
  let rest ← readWord (ascii ['S', 'E', 'N', 'D']) text
  let (payload, rest) ← readBytes rest
  let rest ← readWord (ascii ['c', 'o', 'n', 's', 'o', 'l', 'e', '=']) rest
  let (console, rest) ← readFlag rest
  if atEnd rest then some (.send payload console) else none

/-- `DISPATCH rx=<bytes> avail=<natural> [taken=<natural>]`. -/
def readDispatch (text : Bytes) : Option Instr := do
  let rest ← readWord (ascii ['D', 'I', 'S', 'P', 'A', 'T', 'C', 'H']) text
  let rest ← readWord (ascii ['r', 'x', '=']) rest
  let (rx, rest) ← readBytes rest
  let rest ← readWord (ascii ['a', 'v', 'a', 'i', 'l', '=']) rest
  let (avail, rest) ← readNat rest
  if atEnd rest then some (.dispatch rx avail none)
  else do
    let rest ← readWord (ascii ['t', 'a', 'k', 'e', 'n', '=']) rest
    let (taken, rest) ← readNat rest
    if atEnd rest then some (.dispatch rx avail (some taken)) else none

/-- One line of a script (R72). -/
def readLine (text : Bytes) : Option Instr :=
  readCreate text
    <|> readPlain (ascii ['C', 'O', 'N', 'N', 'E', 'C', 'T']) .connect text
    <|> readDispatch text
    <|> readSend text
    <|> readPlain (ascii ['C', 'L', 'O', 'S', 'E']) .close text
    <|> readPlain (ascii ['D', 'E', 'S', 'T', 'R', 'O', 'Y']) .destroy text

end Sys2Proof.Machine
end

