-- ==== Sys2Proof/Safety.lean ====
section
/-! DEFINITION. The terms in which claims speak of safe runs: where a delimiter stands, the invariants of 10_state.md R28, what a
trace says about the console and about sessions, and a run over a list of operations. There is no fault to be safe from (log
entry 18): a safe run is one whose states keep these invariants. -/

namespace Sys2Proof.Machine

/-- `DELIM` stands at offset `i` (R58, R80). -/
abbrev delimAt (buf : Bytes) (i : Nat) : Prop :=
  buf[i]? = some 0x22#8 ∧ buf[i + 1]? = some 0x22#8 ∧ buf[i + 2]? = some 0x22#8

/-- The byte sequence holds no occurrence of `DELIM`. -/
def noDelim (buf : Bytes) : Prop := ∀ i, ¬ delimAt buf i

/-- R28 items 1 to 6, and that an armed Channel is alive (DESTROY needs `armed = false`, R134). -/
structure ChannelInv (c : Channel) : Prop where
  userFrame_sending : c.sendingUserFrame = true → c.sending = true
  resume_userFrame : c.resumeUart = true → c.sendingUserFrame = true
  sending_queued : c.sending = true → c.txBuf ≠ []
  sending_connected : c.sending = true → c.connected = true
  connected_armed : c.connected = true → c.armed = true
  connected_notWaiting : c.connected = true → c.waitingForStartFrame = false
  waiting_configured : c.waitingForStartFrame = true → c.waitForStartFrame = true
  armed_alive : c.armed = true → c.alive = true

/-- R28 items 7 and 8: between operations `rx_buf` holds no delimiter and is no longer than the threshold. -/
structure ResidueInv (c : Channel) : Prop where
  no_delimiter : noDelim c.rxBuf
  bounded : c.rxBuf.length ≤ c.maxFrameSize + 6

/-- R28 items 9 and 10, for a Channel on which no CLOSE has abandoned bytes: nothing is queued while nothing is in flight, and what is
queued while a frame is in flight is what is left of that one frame, a user frame or a handshake reply. -/
structure QueueInv (c : Channel) : Prop where
  idle_empty : c.sending = false → c.txBuf = []
  one_userFrame : c.sending = true → c.sendingUserFrame = true → ∃ payload, c.txBuf <:+ encodeFrame payload
  one_reply : c.sending = true → c.sendingUserFrame = false → c.txBuf <:+ encodeHandshake

/-- The bytes hold a whole span that is the one byte 0x04: it begins them or follows a delimiter, and a delimiter closes it (R57,
R91). -/
def holdsHandshake (buf : Bytes) : Prop :=
  ∃ pre post : Bytes, buf = pre ++ [0x04#8] ++ [0x22#8, 0x22#8, 0x22#8] ++ post ∧
    (pre = [] ∨ [0x22#8, 0x22#8, 0x22#8] <:+ pre)

/-- Where the handshake span comes from, for the instructions that can handle one (R91, R128); the others handle none. -/
def handshakeSource (i : Instr) (s : State) : Prop :=
  match i with
  | .rxHandshake => True
  | .rxFrame f => f = [0x04#8]
  | .extractOne k => readPast s.draws s.chan.rxBuf k = [0x04#8]
  | .extractFrames => holdsHandshake s.chan.rxBuf
  | .delim => holdsHandshake (s.chan.rxBuf ++ Config.delim)
  | .hsFrame => holdsHandshake (s.chan.rxBuf ++ encodeHandshake)
  | .dataFrame payload => holdsHandshake (s.chan.rxBuf ++ encodeFrame payload)
  | .dataSpanRx message metadata => holdsHandshake (s.chan.rxBuf ++ (message ++ metadata ++ Config.delim))
  | .dispatch rx _ _ => holdsHandshake (s.chan.rxBuf ++ rx)
  | _ => False

/-- The table of R135: the changes of named state an instruction can make. A DISPATCH receives and then drains, so it can make the
changes of both; what only receives or only drains makes its own part of them. -/
def fsmMoves : Instr → List (FsmState × FsmState)
  | .create _ _ => [(.destroyed, .disconnected)]
  | .connect => [(.disconnected, .connecting)]
  | .send _ _ => [(.connectedIdle, .connectedSendingUser)]
  | .close =>
    [(.connecting, .disconnected), (.connectedIdle, .disconnected), (.connectedSendingReply, .disconnected),
      (.connectedSendingUser, .disconnected)]
  | .destroy => [(.disconnected, .destroyed)]
  | .dispatch _ _ _ =>
    [(.connecting, .connectedSendingReply), (.connecting, .connectedIdle), (.connectedIdle, .connectedSendingReply),
      (.connectedSendingReply, .connectedIdle), (.connectedSendingUser, .connectedIdle)]
  | .delim | .hsFrame | .dataFrame _ | .dataSpanRx _ _ | .extractOne _ | .extractFrames | .rxFrame _ | .rxHandshake =>
    [(.connecting, .connectedSendingReply), (.connectedIdle, .connectedSendingReply)]
  | .txDrain _ _ => [(.connectedSendingReply, .connectedIdle), (.connectedSendingUser, .connectedIdle)]
  | _ => []

/-- Following the console through a trace (R138): suspended or not; none once two suspends or two resumes meet. -/
def consoleStep : Option Bool → Event → Option Bool
  | some false, .consoleSuspend => some true
  | some true, .consoleResume => some false
  | some true, .consoleSuspend => none
  | some false, .consoleResume => none
  | st, _ => st

/-- The console after a trace, starting unsuspended. -/
def consoleTrack (trace : List Event) : Option Bool := trace.foldl consoleStep (some false)

/-- Suspends and resumes alternate, and `resume_uart` mirrors the console (R31 b, R138). -/
def ConsoleInv (s : State) : Prop := consoleTrack s.trace = some s.chan.resumeUart

/-- Counting OPEN since the last CLOSED (R128, R136). -/
def sessionStep (n : Nat) : Event → Nat
  | .opened => n + 1
  | .closed => 0
  | _ => n

/-- How many OPEN the trace holds since its last CLOSED. -/
def opensSinceClosed (trace : List Event) : Nat := trace.foldl sessionStep 0

/-- OPEN has been raised exactly once in a connected session, and not at all otherwise (R128, R136). -/
def SessionInv (s : State) : Prop := opensSinceClosed s.trace = if s.chan.connected then 1 else 0

/-- The messages of the FRAME_RECEIVED events, in order. -/
def received (trace : List Event) : List Bytes :=
  trace.filterMap fun e => match e with | .frameReceived msg => some msg | _ => none

/-- The events emitted between two states. -/
def emitted (s t : State) : List Event := t.trace.drop s.trace.length

/-- Operations one after another, stopping at the first that has no next state. -/
def execAll : List Instr → State → Out
  | [], s => .next s
  | i :: rest, s =>
    match exec i s with
    | .next t => execAll rest t
    | .fault r => .fault r
    | .refused r => .refused r

/-- PUMP with a driver that answers in its own way each time, its room and what it accepts, until nothing is in flight (R73, R203). -/
def drainWith : List (Nat × Nat) → State → Out
  | [], s => .next s
  | (avail, taken) :: rest, s =>
    if s.chan.sending = false then .next s
    else
      match exec (.dispatch [] avail (some taken)) s with
      | .next t => drainWith rest t
      | .fault r => .fault r
      | .refused r => .refused r

/-- The operation completes in a state with the property. -/
def leadsTo (i : Instr) (s : State) (p : State → Prop) : Prop := ∃ t, exec i s = .next t ∧ p t

/-- Appending and extracting chunk after chunk, without the tests of POST_RX (R87). -/
def receiveChunks : List Bytes → Channel → Effect
  | [], c => quiet c
  | chunk :: rest, c => ((rxAppend chunk c).andThen extractFrames).andThen (receiveChunks rest)

/-- The most-significant-bit-first form of the checksum step, with the generator polynomial 0x04C11DB7 itself (R103). -/
def crcBitMsb (r : Word32) : Word32 := if r.msb then (r <<< 1) ^^^ 0x04C11DB7#32 else r <<< 1

/-- One reflected byte into the most-significant-bit-first register (R103). -/
def crcByteMsb (r : Word32) (b : Byte) : Word32 := Nat.iterate crcBitMsb 8 (r ^^^ (b.reverse.zeroExtend 32 <<< 24))

/-- The checksum as R103 describes it in words: generator 0x04C11DB7, input and output reflected. -/
def crc32Reflected (s : Bytes) : Word32 := (s.foldl crcByteMsb 0xFFFFFFFF#32).reverse ^^^ 0xFFFFFFFF#32

/-- The table of the table-driven form: eight steps from each byte (R105). -/
def crcTableEntry (i : Byte) : Word32 := Nat.iterate crcBit 8 (i.zeroExtend 32)

/-- The table-driven, byte-at-a-time checksum (R105). -/
def crc32TableDriven (s : Bytes) : Word32 :=
  s.foldl (fun (r : Word32) (b : Byte) => (r >>> 8) ^^^ crcTableEntry ((r ^^^ b.zeroExtend 32).setWidth 8)) 0xFFFFFFFF#32 ^^^
    0xFFFFFFFF#32

/-- The hexadecimal digits, written out (R65, R107): value and the bytes that stand for it. -/
def hexValue (c : Byte) : Option Nat :=
  ([0x30#8, 0x31#8, 0x32#8, 0x33#8, 0x34#8, 0x35#8, 0x36#8, 0x37#8, 0x38#8, 0x39#8, 0x61#8, 0x62#8, 0x63#8, 0x64#8, 0x65#8,
    0x66#8].idxOf? c).or (([0x41#8, 0x42#8, 0x43#8, 0x44#8, 0x45#8, 0x46#8].idxOf? c).map (· + 10))

/-- ASCII lower case of the letters `A` to `F` (R108). -/
def lowerHex (c : Byte) : Byte := if 0x41 ≤ c.toNat ∧ c.toNat ≤ 0x46 then c + 0x20#8 else c

end Sys2Proof.Machine
end

