-- ==== Sys2Proof/Certificates/Slice0/Obligations.lean ====
section
/-! DEFINITION. The statements for the provers. Each docstring names the rule of spec/ it rests on; one that rests on a decision
of the spec (D<n> of 92_eei_decisions.md) or of this model (a log entry) says so. A next state is written in full: what is not
named after `with` is unchanged. -/

open Sys2Proof Sys2Proof.Machine

/-! ## Encoding, decoding, the step -/

/-- Every well-formed instruction is read back from its own encoding (R58 to R62, R69 to R71, R74). -/
def Obligations.DecodeOfEncodeIsTheInstruction : Prop :=
  ∀ i : Instr, i.wellFormed = true → decode (encode i) = .ok i

/-- A port item has one meaning: what it decodes to is well formed and encodes back to the same item, so no bit or operand is
dropped or read twice. Bytes that are no wire format are the one exception: no instruction encodes to them, and they arrive as
FEED of themselves (R67, R73; the model's reading: log entry 8). -/
def Obligations.EncodeOfDecodeIsTheItem : Prop :=
  ∀ (item : PortItem) (i : Instr), decode item = .ok i → i.wellFormed = true ∧
    (encode i = item ∨
      ∃ bytes, item = .wire bytes ∧ i = feed bytes ∧ ∀ j : Instr, j.wellFormed = true → encode j ≠ item)

/-- A step takes the next operation the environment presents off the port and runs what it decodes to; with nothing presented the
state is held, and an item that decodes to nothing is refused (the model's port: log entries 1, 4, 15; R9, R24). -/
def Obligations.StepRunsTheDecodedInstruction : Prop :=
  ∀ s : State,
    (s.port = [] → step s = .next s) ∧
    (∀ item rest i, s.port = item :: rest → decode item = .ok i → step s = exec i { s with port := rest }) ∧
    (∀ item rest e, s.port = item :: rest → decode item = .error e → step s = .refused (.undecodable e))

/-- A few words written out from the spec's encodings decode to what they stand for (R58, R59, R61, R69, R70, R71); the reserved
event codes 1101 to 1111 and the error codes 000 and 101 to 111 decode to nothing. -/
def Obligations.SpecWordsDecodeToTheirRows : Prop :=
  decode (.wire [0x22#8, 0x22#8, 0x22#8]) = .ok .delim ∧
  decode (.wire [0x22#8, 0x22#8, 0x22#8, 0x04#8, 0x22#8, 0x22#8, 0x22#8]) = .ok .hsFrame ∧
  decode (.wire []) = .ok .emptySpan ∧
  decode (.cmd 0b001#3 []) = .ok .connect ∧
  decode (.cmd 0b101#3 [.bytes [0x41#8], .num 64, .num 7]) = .ok (.dispatch [0x41#8] 64 (some 7)) ∧
  decode (.cmd 0b111#3 []) = .ok (.reservedCmd 1#1) ∧
  decode (.event 0b1100#4 []) = .ok .evDiagErrorOversize ∧
  decode (.error 0b100#3) = .ok .errSetupFailure ∧
  (∀ (code : BitVec 4) (args : List Operand), 13 ≤ code.toNat → ∀ i, decode (.event code args) ≠ .ok i) ∧
  (∀ code : BitVec 3, code.toNat = 0 ∨ 5 ≤ code.toNat → ∀ i, decode (.error code) ≠ .ok i)

/-! ## Reset and the life of a Channel -/

/-- After reset the Channel is the one R30 gives: the two parameters, every flag false, both buffers empty, not armed, alive. The
values other than `connected`, `sending` and `tx_buf` are decision D5 of the spec, the parameters are OPEN, and that reset leaves a Channel that
is alive is R30's reading (log entry 3). That nothing has been emitted at reset is the model's choice for its own field
(log entry 2). -/
def Obligations.ResetGivesTheFreshChannel : Prop :=
  State.reset.chan =
    { waitForStartFrame := Config.waitForStartFrame, maxFrameSize := Config.maxFrameSize, waitingForStartFrame := false,
      connected := false, sending := false, sendingUserFrame := false, resumeUart := false, rxBuf := [], txBuf := [],
      armed := false, alive := true } ∧
  State.reset.trace = [] ∧ fsmState State.reset.chan = .disconnected

/-- The invariants hold right after reset: items 1 to 8 of R28, items 9 and 10 of R28 (no CLOSE has run), and with them the symmetry
of the console (R138) and the one OPEN of a session (R136), which speak of the trace and hold at reset because the model's own
field starts empty (log entry 2). The values are decision D5 (log entry 3). -/
def Obligations.InvariantsHoldAfterReset : Prop :=
  ChannelInv State.reset.chan ∧ ResidueInv State.reset.chan ∧ QueueInv State.reset.chan ∧ ConsoleInv State.reset ∧
    SessionInv State.reset

/-- CREATE on no Channel gives the fresh Channel with the two operands and emits nothing (R176; the values are decision D5). -/
def Obligations.CreateMakesAFreshChannel : Prop :=
  ∀ (s : State) (wait : Bool) (max : Nat), s.chan.alive = false →
    exec (.create wait max) s = .next { s with
      chan :=
        { waitForStartFrame := wait, maxFrameSize := max, waitingForStartFrame := false, connected := false, sending := false,
          sendingUserFrame := false, resumeUart := false, rxBuf := [], txBuf := [], armed := false, alive := true }
      result := .none }

/-- CONNECT: nothing when connected; otherwise `waiting_for_start_frame` takes the configured value, the entry point is
registered and receive enabled (R131; the bit `armed` is decision D6). -/
def Obligations.ConnectArmsUnlessConnected : Prop :=
  ∀ s : State, s.chan.alive = true →
    exec .connect s = .next
      (if s.chan.connected = true then { s with result := .none }
       else { s with
         chan := { s.chan with waitingForStartFrame := s.chan.waitForStartFrame, armed := true }
         trace := s.trace ++ [.setDispatcherOn, .rxEnable]
         result := .none })

/-- SEND while connected and idle queues the encoded frame behind what `tx_buf` holds and asks for a dispatch; the console is
suspended exactly when it is on the line (R132; `console_on_line` is an operand by decision D26). -/
def Obligations.SendQueuesTheFrame : Prop :=
  ∀ (s : State) (payload : Bytes) (consoleOnLine : Bool), s.chan.alive = true → s.chan.connected = true →
    s.chan.sending = false →
    exec (.send payload consoleOnLine) s = .next { s with
      chan := { s.chan with
        txBuf := s.chan.txBuf ++ ([0x22#8, 0x22#8, 0x22#8] ++ payload ++ hex8 (crcFn payload) ++ [0x22#8, 0x22#8, 0x22#8])
        sending := true
        sendingUserFrame := true
        resumeUart := s.chan.resumeUart || consoleOnLine }
      trace := s.trace ++ ((if consoleOnLine = true then [.consoleSuspend] else []) ++ [.requestDispatch false])
      result := .accepted true }

/-- SEND while not connected or while a frame is in flight returns false and changes nothing else: no flag, no buffer, no event
(R153). The kind is recorded in the model's list of raised errors (log entry 2). -/
def Obligations.SendRejectedChangesNothing : Prop :=
  ∀ (s : State) (payload : Bytes) (consoleOnLine : Bool), s.chan.alive = true →
    s.chan.connected = false ∨ s.chan.sending = true →
    exec (.send payload consoleOnLine) s =
      .next { s with result := .accepted false, errors := s.errors ++ [.sendRejected] }

/-- CLOSE clears `armed`, `connected`, `sending`, `sending_user_frame` and `resume_uart`, resumes a suspended console, always
raises CLOSED, and leaves both buffers and `waiting_for_start_frame` (R133; what it leaves is decision D15). -/
def Obligations.CloseAbandonsTheSession : Prop :=
  ∀ s : State, s.chan.alive = true →
    exec .close s = .next { s with
      chan := { s.chan with
        armed := false, connected := false, sending := false, sendingUserFrame := false, resumeUart := false }
      trace := s.trace ++ (if s.chan.resumeUart = true then [.setDispatcherOff, .consoleResume, .closed]
        else [.setDispatcherOff, .closed])
      result := .none }

/-- DESTROY on a Channel that is not armed empties both buffers and ends its life, with no event (R134; decision D16). -/
def Obligations.DestroyEndsTheChannel : Prop :=
  ∀ s : State, s.chan.alive = true → s.chan.armed = false →
    exec .destroy s = .next { s with chan := { s.chan with rxBuf := [], txBuf := [], alive := false }, result := .none }

/-- The refusals of R186 (decisions D16 and D24): no command but CREATE and no internal operation on a Channel that is not alive,
no second CREATE, no DISPATCH while not armed, no DESTROY while armed, no driver that accepts more than it was offered. -/
def Obligations.OperationsOutsideTheirPreconditionAreRefused : Prop :=
  (∀ (i : Instr) (s : State), s.chan.alive = false → i.format = .cmd ∨ i.format = .internal →
    (∀ wait max, i ≠ .create wait max) → ∃ r, exec i s = .refused r) ∧
  (∀ (s : State) wait max, s.chan.alive = true → exec (.create wait max) s = .refused .channelAlive) ∧
  (∀ (s : State) rx avail taken, s.chan.alive = true → s.chan.armed = false →
    exec (.dispatch rx avail taken) s = .refused .notArmed) ∧
  (∀ s : State, s.chan.alive = true → s.chan.armed = true → exec .destroy s = .refused .stillArmed) ∧
  (∀ (s : State) rx avail taken, s.chan.alive = true → s.chan.armed = true →
    min (receivePhase rx s.chan).chan.txBuf.length avail < taken →
    exec (.dispatch rx avail (some taken)) s = .refused .tookMoreThanOffered)

/-- The refusals of this model beside R186, and what this model does not refuse: what runs inside a DISPATCH needs an armed Channel
(log entry 5), and so does the arrival of a wire format (log entry 8, for EMPTY_SPAN 9); TX_DRAIN by itself keeps the bound on
the driver's answer (log entry 7); wire formats, events and error kinds need a live Channel (log entries 8 to 11). EXTRACT_ONE
is not refused at any `k`: its pseudocode runs at every offset, on a span whose bytes past the end of `rx_buf` are free (R82;
log entries 6, 26). -/
def Obligations.TheModelsOwnRefusals : Prop :=
  ∀ s : State,
    (s.chan.alive = true → s.chan.armed = false →
      ∀ (bytes more : Bytes) (k avail taken : Nat),
        ∀ i ∈ [Instr.delim, .hsFrame, .dataFrame bytes, .emptySpan, .dataSpanRx bytes more, .extractOne k, .extractFrames,
            .rxAppend bytes, .rxFrame bytes, .rxHandshake, .rxData bytes, .postRx, .txDrain avail taken],
          exec i s = .refused .notArmed) ∧
    (s.chan.alive = true → s.chan.armed = true → ∀ avail taken, min s.chan.txBuf.length avail < taken →
      exec (.txDrain avail taken) s = .refused .tookMoreThanOffered) ∧
    (s.chan.alive = false → ∀ i : Instr, i.format = .wire ∨ i.format = .event ∨ i.format = .error → i ≠ .errSetupFailure →
      exec i s = .refused .channelNotAlive) ∧
    (s.chan.alive = true → s.chan.armed = true → ∀ k, k ≠ 0 → ∃ t,
      exec (.rxFrame (s.chan.rxBuf.take k ++ freeBytes s.draws (k - s.chan.rxBuf.length))) s = .next t ∧
      exec (.extractOne k) s = .next { t with
        chan := { t.chan with rxBuf := s.chan.rxBuf.drop (k + 3) }
        draws := s.draws + (k - s.chan.rxBuf.length) }) ∧
    (s.chan.alive = true → s.chan.armed = true → exec (.extractOne 0) s = .next { s with
      chan := { s.chan with rxBuf := s.chan.rxBuf.drop 3 }, result := .none })

/-- The command codes 110 and 111 are refused in every state (R69, R186; the numbering is decision D3). -/
def Obligations.ReservedCommandsAreAlwaysRefused : Prop :=
  ∀ (s : State) (x : BitVec 1), exec (.reservedCmd x) s = .refused .reservedCommand

/-! ## Delimiter detector -/

/-- FIND_DELIM answers the offset of the leftmost `DELIM` of `rx_buf`, or none when there is none, and modifies nothing (R80). -/
def Obligations.FindDelimAnswersTheLeftmostOffset : Prop :=
  ∀ s : State, s.chan.alive = true → ∃ r : Option Nat,
    exec .findDelim s = .next { s with result := .offset r } ∧
    (∀ k, r = some k → delimAt s.chan.rxBuf k ∧ ∀ j, j < k → ¬ delimAt s.chan.rxBuf j) ∧
    (r = none → noDelim s.chan.rxBuf)

/-- EXTRACT_ONE at the leftmost delimiter hands a non-empty span on and then removes span and delimiter; an empty span is only
removed, with no event, flag or diagnostic (R82, R83). -/
def Obligations.ExtractOneHandlesThenRemoves : Prop :=
  ∀ (s : State) (k : Nat), s.chan.alive = true → s.chan.armed = true → delimAt s.chan.rxBuf k →
    (∀ j, j < k → ¬ delimAt s.chan.rxBuf j) →
    (k = 0 → exec (.extractOne 0) s =
      .next { s with chan := { s.chan with rxBuf := s.chan.rxBuf.drop 3 }, result := .none }) ∧
    (k ≠ 0 → ∃ t, exec (.rxFrame (s.chan.rxBuf.take k)) s = .next t ∧
      exec (.extractOne k) s = .next { t with chan := { t.chan with rxBuf := s.chan.rxBuf.drop (k + 3) } })

/-- EXTRACT_FRAMES is its loop (R84): with no delimiter nothing happens; with one at the leftmost `k` it is EXTRACT_ONE there and then
EXTRACT_FRAMES again. It completes, leaves no delimiter and a suffix of the buffer it started with, and changes neither the
configuration nor `armed`, `alive`, `sending_user_frame` or `resume_uart`. -/
def Obligations.ExtractFramesLeavesAnIncompleteSpan : Prop :=
  ∀ s : State, s.chan.alive = true → s.chan.armed = true →
    (noDelim s.chan.rxBuf → exec .extractFrames s = .next { s with result := .none }) ∧
    (∀ k, delimAt s.chan.rxBuf k → (∀ j, j < k → ¬ delimAt s.chan.rxBuf j) →
      exec .extractFrames s = execAll [.extractOne k, .extractFrames] s) ∧
    ∃ t, exec .extractFrames s = .next t ∧
      noDelim t.chan.rxBuf ∧ t.chan.rxBuf <:+ s.chan.rxBuf ∧
      t.chan.waitForStartFrame = s.chan.waitForStartFrame ∧ t.chan.maxFrameSize = s.chan.maxFrameSize ∧
      t.chan.armed = s.chan.armed ∧ t.chan.alive = s.chan.alive ∧
      t.chan.sendingUserFrame = s.chan.sendingUserFrame ∧ t.chan.resumeUart = s.chan.resumeUart ∧
      s.trace <+: t.trace ∧ t.port = s.port ∧ t.draws = s.draws ∧ t.result = .none

/-- A run of `q` quotes, behind a span `pre` (or behind nothing) and in front of any other byte or of the end of what has arrived, is
read as `q div 3` delimiters, and its last `q mod 3` quotes begin the next span or wait (R85). With fewer than three quotes there
is no delimiter up to the end of the run; with more, the span is closed, then `q div 3 - 1` empty spans, and extraction goes on
from there. A run further on becomes the first one when the spans in front of it are gone. -/
def Obligations.QuoteRunsAreCutGreedily : Prop :=
  ∀ (s : State) (pre rest : Bytes) (q : Nat), s.chan.alive = true → s.chan.armed = true → noDelim pre →
    pre.getLast? ≠ some 0x22#8 → rest.head? ≠ some 0x22#8 → s.chan.rxBuf = pre ++ List.replicate q 0x22#8 ++ rest →
    (q < 3 → ∀ j, j ≤ pre.length + q → ¬ delimAt s.chan.rxBuf j) ∧
    (3 ≤ q → ∃ t,
      execAll (.extractOne pre.length :: List.replicate (q / 3 - 1) (.extractOne 0)) s = .next t ∧
      t.chan.rxBuf = List.replicate (q % 3) 0x22#8 ++ rest ∧ exec .extractFrames s = exec .extractFrames t) ∧
    (pre = [] → rest.length ≤ 1 → exec .extractFrames s = .next { s with
      chan := { s.chan with rxBuf := List.replicate (q % 3) 0x22#8 ++ rest }, result := .none })

/-- The byte-at-a-time reading of the detector (R88): appending one byte to a buffer without a delimiter makes one exactly when
the byte is a quote and the last two bytes are quotes, and then two bytes from the old end. -/
def Obligations.StreamingDetectorFiresOnTheThirdQuote : Prop :=
  ∀ (buf : Bytes) (b : Byte), noDelim buf →
    findDelim (buf ++ [b]) =
      if b = 0x22#8 ∧ [0x22#8, 0x22#8] <:+ buf then some (buf.length - 2) else none

/-- Independence from chunking (R87): as long as no POST_RX phase changes anything, feeding a byte string in pieces leaves the same
state, with the same events, as feeding it in one DISPATCH. FEED is a DISPATCH without room at the driver (R73). -/
def Obligations.ReceptionIgnoresChunking : Prop :=
  ∀ (s : State) (chunks : List Bytes), s.chan.alive = true → s.chan.armed = true → chunks ≠ [] →
    (∀ chunk ∈ chunks, chunk ≠ []) →
    (∀ n, n < chunks.length →
      postRx (receiveChunks (chunks.take (n + 1)) s.chan).chan = quiet (receiveChunks (chunks.take (n + 1)) s.chan).chan) →
    execAll (chunks.map feed) s = exec (feed chunks.flatten) s

/-! ## Frame decoder -/

/-- CLASSIFY: a span is a handshake exactly when its length is 1 and its byte is 0x04 (R90, R91). -/
def Obligations.ClassifyKnowsTheHandshakeByte : Prop :=
  ∀ (s : State) (f : Bytes), s.chan.alive = true →
    exec (.classify f) s = .next { s with
      result := .spanClass (if f.length = 1 ∧ f[0]? = some 0x04#8 then .handshake else .data) }

/-- SPLIT_META answers the largest `m` in `1..len(f)` whose byte `f[m-1]` is `}`, or 0 if there is no `}` (R93). -/
def Obligations.SplitMetaAnswersTheLastBrace : Prop :=
  ∀ (s : State) (f : Bytes), s.chan.alive = true → ∃ m : Nat,
    exec (.splitMeta f) s = .next { s with result := .splitPoint m } ∧ m ≤ f.length ∧
    (m ≠ 0 → f[m - 1]? = some 0x7D#8) ∧ (∀ j, m ≤ j → j < f.length → f[j]? ≠ some 0x7D#8)

/-- DECODE_DATA on a message and its metadata (R96; what is stripped and what passes unparsed are decisions D9, D10, D12): no
message is dropped silently; short or unparsable metadata deliver; eight digits deliver exactly when they are the checksum. -/
def Obligations.DecodeDataDeliversOrDrops : Prop :=
  ∀ (s : State) (msg metadata : Bytes), s.chan.alive = true → (msg ≠ [] → msg.getLast? = some 0x7D#8) →
    (0x7D#8 : Byte) ∉ metadata →
    exec (.decodeData (msg ++ metadata)) s = .next { s with
      result := .decoded
        (if msg = [] then .dropSilent
         else if metadata.length < 8 then .deliver msg
         else if hexParse8 (metadata.take 8) = none ∨ hexParse8 (metadata.take 8) = some (crcFn msg) then .deliver msg
         else .dropBadChecksum) }

/-! ## Checksum -/

/-- CRC32 is the reflected CRC with generator polynomial 0x04C11DB7, all ones on entry and inverted on exit (R103; the constants
are general knowledge, decision D11). -/
def Obligations.Crc32IsTheReflectedPolynomialCode : Prop :=
  ∀ (s : State) (bytes : Bytes), s.chan.alive = true →
    exec (.crc32 bytes) s = .next { s with result := .word (crc32Reflected bytes) }

/-- A table-driven implementation computes the same function (R105). -/
def Obligations.Crc32AgreesWithTheTableDrivenForm : Prop := ∀ bytes : Bytes, crc32 bytes = crc32TableDriven bytes

/-- HEX8 gives eight digits, most significant nibble first, lowercase (R106; the order is decision D12). -/
def Obligations.Hex8WritesTheMostSignificantDigitFirst : Prop :=
  ∀ (s : State) (v : Word32), s.chan.alive = true → ∃ bs : Bytes,
    exec (.hex8 v) s = .next { s with result := .bytes bs } ∧ bs.length = 8 ∧
    ∀ i, i < 8 → ∃ c, bs[i]? = some c ∧ hexValue c = some (v.toNat / 16 ^ (7 - i) % 16) ∧ lowerHex c = c

/-- HEXPARSE8 on eight bytes: if all are hexadecimal digits, of either case, their value with the first digit the most
significant; none as soon as one is not (R107; what parses is decision D12). An operand of another length runs by the same pseudocode: its first eight
bytes are read, and those it does not have are free (the model's choice: log entries 24, 26). -/
def Obligations.HexParse8ReadsEightDigitsOrNone : Prop :=
  ∀ (s : State) (h : Bytes), s.chan.alive = true →
    (h.length = 8 → ∃ r : Option Word32,
      exec (.hexParse8 h) s = .next { s with result := .parsed r } ∧
      ((∃ c ∈ h, hexValue c = none) → r = none) ∧
      ((∀ c ∈ h, hexValue c ≠ none) →
        ∃ v, r = some v ∧ v.toNat = h.foldl (fun acc c => 16 * acc + (hexValue c).getD 0) 0)) ∧
    exec (.hexParse8 h) s = .next { s with
      result := .parsed (hexParse8 (h.take 8 ++ freeBytes s.draws (8 - h.length))), draws := s.draws + (8 - h.length) } ∧
    ((∃ c ∈ h.take 8, hexValue c = none) → hexParse8 (h.take 8 ++ freeBytes s.draws (8 - h.length)) = none)

/-- The laws relating the two conversions (R108): parsing what HEX8 wrote gives the word back, and writing what was parsed gives
the digits back in lower case. -/
def Obligations.HexConversionsAreInverse : Prop :=
  (∀ v : Word32, hexParse8 (hex8 v) = some v) ∧
  (∀ (h : Bytes) (v : Word32), h.length = 8 → hexParse8 h = some v → hex8 v = h.map lowerHex)

/-- CHECK's verdict (R109): absent below eight bytes, unparsable, match or mismatch. -/
def Obligations.CheckComparesTheFirstEightDigits : Prop :=
  ∀ (s : State) (msg metadata : Bytes), s.chan.alive = true → ∃ v : CheckVerdict,
    exec (.check msg metadata) s = .next { s with result := .verdict v } ∧
    (v = .absent ↔ metadata.length < 8) ∧
    (v = .unparsable ↔ 8 ≤ metadata.length ∧ hexParse8 (metadata.take 8) = none) ∧
    (v = .matches ↔ 8 ≤ metadata.length ∧ hexParse8 (metadata.take 8) = some (crcFn msg))

/-! ## Frame encoder -/

/-- ENCODE_FRAME: delimiter, payload verbatim, eight digits of its checksum, delimiter: `n + 14` bytes (R114). ENCODE_HANDSHAKE:
the seven bytes 22 22 22 04 22 22 22 (R117). -/
def Obligations.EncodersBuildTheWireFormats : Prop :=
  ∀ (s : State) (payload : Bytes), s.chan.alive = true →
    (∃ bs : Bytes, exec (.encodeFrame payload) s = .next { s with result := .bytes bs } ∧
      bs = [0x22#8, 0x22#8, 0x22#8] ++ payload ++ hex8 (crcFn payload) ++ [0x22#8, 0x22#8, 0x22#8] ∧
      bs.length = payload.length + 14) ∧
    exec .encodeHandshake s = .next { s with
      result := .bytes [0x22#8, 0x22#8, 0x22#8, 0x04#8, 0x22#8, 0x22#8, 0x22#8] }

/-- The round-trip law with its exact domain (R119), for the frame in one chunk: a Channel that is not waiting and holds nothing
receives exactly the payload if and only if the payload holds no delimiter and its last byte is `}`. -/
def Obligations.RoundTripHoldsExactlyOnItsDomain : Prop :=
  ∀ (s : State) (payload : Bytes), s.chan.alive = true → s.chan.armed = true → s.chan.waitingForStartFrame = false →
    s.chan.rxBuf = [] → ∃ t, exec (feed (encodeFrame payload)) s = .next t ∧
      (received (emitted s t) = [payload] ↔ noDelim payload ∧ payload.getLast? = some 0x7D#8)

/-! ## Phases of DISPATCH -/

/-- RX_APPEND appends the chunk whole and changes nothing else (R123). -/
def Obligations.RxAppendAppendsTheWholeChunk : Prop :=
  ∀ (s : State) (rx : Bytes), s.chan.alive = true → s.chan.armed = true →
    exec (.rxAppend rx) s = .next { s with chan := { s.chan with rxBuf := s.chan.rxBuf ++ rx }, result := .none }

/-- RX_FRAME: a handshake is acted on in every state; a data span is decoded only when no start frame is awaited, and dropped
silently otherwise (R124; the gate is decision D7). -/
def Obligations.RxFrameGatesDataSpans : Prop :=
  ∀ (s : State) (f : Bytes), s.chan.alive = true → s.chan.armed = true →
    (f = [0x04#8] → ∃ t, exec (.rxFrame f) s = .next t ∧ exec .rxHandshake s = .next t) ∧
    (f ≠ [0x04#8] → s.chan.waitingForStartFrame = false →
      ∃ t, exec (.rxFrame f) s = .next t ∧ exec (.rxData f) s = .next t) ∧
    (f ≠ [0x04#8] → s.chan.waitingForStartFrame = true → exec (.rxFrame f) s = .next { s with result := .none })

/-- RX_DATA: the message is raised, or the mismatch is raised, or nothing happens; no flag and neither buffer changes
(R125). That a raised kind is recorded in `errors` is the model's choice (log entry 2). -/
def Obligations.RxDataDeliversTheMessage : Prop :=
  ∀ (s : State) (f : Bytes), s.chan.alive = true → s.chan.armed = true →
    (∀ msg, decodeData f = .deliver msg →
      exec (.rxData f) s = .next { s with trace := s.trace ++ [.frameReceived msg], result := .none }) ∧
    (decodeData f = .dropBadChecksum → exec (.rxData f) s = .next { s with
      trace := s.trace ++ [.diagWarnChecksum], result := .none, errors := s.errors ++ [.checksumMismatch] }) ∧
    (decodeData f = .dropSilent → exec (.rxData f) s = .next { s with result := .none })

/-- Checksum enforcement with its exact condition (R101): for a span with a message and eight hexadecimal digits behind it, a
frame is received exactly when their value is the checksum of the message. -/
def Obligations.ChecksumIsEnforced : Prop :=
  ∀ (s : State) (msg digits rest : Bytes) (v : Word32), s.chan.alive = true → s.chan.armed = true →
    s.chan.waitingForStartFrame = false → msg.getLast? = some 0x7D#8 → (0x7D#8 : Byte) ∉ digits ++ rest →
    digits.length = 8 → hexParse8 digits = some v → ∃ t,
      exec (.rxFrame (msg ++ digits ++ rest)) s = .next t ∧ t.chan = s.chan ∧
      emitted s t = if v = crcFn msg then [.frameReceived msg] else [.diagWarnChecksum]

/-- RX_HANDSHAKE: the wait ends, the first handshake raises OPEN, and a reply is queued exactly when nothing is in flight (R128;
no reply while busy is decision D8). -/
def Obligations.RxHandshakeOpensAndReplies : Prop :=
  ∀ s : State, s.chan.alive = true → s.chan.armed = true →
    exec .rxHandshake s = .next { s with
      chan := { s.chan with
        waitingForStartFrame := false
        connected := true
        sending := true
        txBuf := if s.chan.sending = true then s.chan.txBuf
          else s.chan.txBuf ++ [0x22#8, 0x22#8, 0x22#8, 0x04#8, 0x22#8, 0x22#8, 0x22#8] }
      trace := s.trace ++ (if s.chan.connected = true then [] else [.opened])
      result := .none }

/-- POST_RX: a residue above the threshold is dropped with one error diagnostic; otherwise, while waiting, it is trimmed to its
last three bytes; otherwise nothing happens. No flag changes (R126). That a raised kind is recorded in `errors` is the
model's choice (log entry 2). -/
def Obligations.PostRxDropsThenTrims : Prop :=
  ∀ s : State, s.chan.alive = true → s.chan.armed = true →
    exec .postRx s = .next
      (if s.chan.maxFrameSize + 6 < s.chan.rxBuf.length then
        { s with chan := { s.chan with rxBuf := [] }, trace := s.trace ++ [.diagErrorOversize], result := .none,
                 errors := s.errors ++ [.oversize] }
       else if s.chan.waitingForStartFrame = true ∧ 3 < s.chan.rxBuf.length then
        { s with chan := { s.chan with rxBuf := s.chan.rxBuf.drop (s.chan.rxBuf.length - 3) }, result := .none }
       else { s with result := .none })

/-- TX_DRAIN while a frame is in flight and the driver has room: the accepted bytes are written and removed, and when nothing is
left `sending` is cleared, then the console resumed, then FRAME_SENT raised (R127; decisions D14, D28). With nothing in flight
or no room nothing is written (R20; log entry 7). -/
def Obligations.TxDrainWritesThenCompletes : Prop :=
  ∀ (s : State) (avail taken : Nat), s.chan.alive = true → s.chan.armed = true →
    taken ≤ min s.chan.txBuf.length avail →
    (s.chan.sending = false ∨ avail = 0 → exec (.txDrain avail taken) s = .next { s with result := .none }) ∧
    (s.chan.sending = true → 0 < avail → taken < s.chan.txBuf.length → exec (.txDrain avail taken) s = .next { s with
      chan := { s.chan with txBuf := s.chan.txBuf.drop taken }
      trace := s.trace ++ (if taken = 0 then [] else [.write (s.chan.txBuf.take taken)])
      result := .none }) ∧
    (s.chan.sending = true → 0 < avail → taken = s.chan.txBuf.length → exec (.txDrain avail taken) s = .next { s with
      chan := { s.chan with txBuf := [], sending := false, sendingUserFrame := false, resumeUart := false }
      trace := s.trace ++ ((if taken = 0 then [] else [.write s.chan.txBuf]) ++
        (if s.chan.resumeUart = true then [.consoleResume] else []) ++
        (if s.chan.sendingUserFrame = true then [.frameSent] else []))
      result := .none })

/-! ## DISPATCH as a whole -/

/-- DISPATCH is its phases one after another (R122, R130): with input RX_APPEND, EXTRACT_FRAMES and POST_RX, and then TX_DRAIN; it has
a next state, or is refused, exactly when this sequence is and with the same name. The receive phase is skipped without input
(decision D13). The phases by themselves are the model's: they need an armed Channel (log entry 5), TX_DRAIN does nothing
without a frame in flight or room (log entry 7), and the bound on `tx_taken` holds in both cases (log entry 13). An absent
`tx_taken` is all that is offered after the receive phase (R72; log entry 14). -/
def Obligations.DispatchIsItsPhasesInOrder : Prop :=
  ∀ (s : State) (rx : Bytes) (avail : Nat),
    (∀ taken : Nat, exec (.dispatch rx avail (some taken)) s =
      execAll ((if rx = [] then [] else [.rxAppend rx, .extractFrames, .postRx]) ++ [.txDrain avail taken]) s) ∧
    exec (.dispatch rx avail none) s =
      exec (.dispatch rx avail (some (min (receivePhase rx s.chan).chan.txBuf.length avail))) s

/-- The null DISPATCH changes no state and emits nothing (R129). -/
def Obligations.NullDispatchChangesNothing : Prop :=
  ∀ (s : State) (avail : Nat) (taken : Option Nat), s.chan.alive = true → s.chan.armed = true →
    s.chan.sending = false ∨ avail = 0 → (∀ t, taken = some t → t ≤ min s.chan.txBuf.length avail) →
    exec (.dispatch [] avail taken) s = .next { s with result := .none }

/-- A DISPATCH with input completes when the driver accepts no more than it was offered; it then holds no complete span and at
most `max_frame_size + 6` bytes (R28 items 7 and 8, R45), and it has not touched the configuration, `armed` or `alive`, has not
ended a connection, and its trace only grew. -/
def Obligations.DispatchLeavesABoundedResidue : Prop :=
  ∀ (s : State) (rx : Bytes) (avail : Nat) (taken : Option Nat), s.chan.alive = true → s.chan.armed = true → rx ≠ [] →
    (∀ t, taken = some t → t ≤ min (receivePhase rx s.chan).chan.txBuf.length avail) → ∃ t,
      exec (.dispatch rx avail taken) s = .next t ∧ noDelim t.chan.rxBuf ∧
      t.chan.rxBuf.length ≤ t.chan.maxFrameSize + 6 ∧
      t.chan.waitForStartFrame = s.chan.waitForStartFrame ∧ t.chan.maxFrameSize = s.chan.maxFrameSize ∧
      t.chan.armed = true ∧ t.chan.alive = true ∧ (s.chan.connected = true → t.chan.connected = true) ∧
      s.trace <+: t.trace ∧ t.port = s.port ∧ t.draws = s.draws

/-- The order of a DISPATCH's outputs (R158; decision D27): the spans' events, then at most one OVERSIZE diagnostic, then WRITE,
CONSOLE_RESUME and FRAME_SENT in this order, each at most once; no message and no WRITE is empty. -/
def Obligations.DispatchEmitsInOrder : Prop :=
  ∀ (s t : State) (rx : Bytes) (avail : Nat) (taken : Option Nat), exec (.dispatch rx avail taken) s = .next t →
    ∃ spans oversize write resume sent : List Event,
      t.trace = s.trace ++ (spans ++ oversize ++ write ++ resume ++ sent) ∧
      (∀ e ∈ spans, e = .opened ∨ e = .diagWarnChecksum ∨ ∃ msg, msg ≠ [] ∧ e = .frameReceived msg) ∧
      (oversize = [] ∨ oversize = [.diagErrorOversize]) ∧
      (write = [] ∨ ∃ bytes, bytes ≠ [] ∧ write = [.write bytes]) ∧
      (resume = [] ∨ resume = [.consoleResume]) ∧ (sent = [] ∨ sent = [.frameSent])

/-- No byte to transmit is lost, altered or reordered by a DISPATCH (R47 item 4): what `tx_buf` held, followed by at most one
handshake reply, is what was written, followed by what `tx_buf` holds now. That there
is at most one reply, and only when nothing was in flight, is HS_REPLY_WHEN_BUSY = skip (decision D8; log entry 16). -/
def Obligations.DispatchConservesTransmitBytes : Prop :=
  ∀ (s t : State) (rx : Bytes) (avail : Nat) (taken : Option Nat), exec (.dispatch rx avail taken) s = .next t →
    ∃ reply : Bytes, (reply = [] ∨ (reply = encodeHandshake ∧ s.chan.sending = false)) ∧
      s.chan.txBuf ++ reply = txStream (emitted s t) ++ t.chan.txBuf

/-- All-or-nothing delivery (R89 a): a chunk that completes no delimiter raises no frame and no OPEN, whatever the driver takes in the
same DISPATCH; only what the transmit phase writes changes beside `rx_buf`, and without room nothing but `rx_buf`. -/
def Obligations.NothingIsDeliveredBeforeTheClosingDelimiter : Prop :=
  ∀ (s t : State) (rx : Bytes) (avail : Nat) (taken : Option Nat), noDelim (s.chan.rxBuf ++ rx) →
    exec (.dispatch rx avail taken) s = .next t →
    received (emitted s t) = [] ∧ Event.opened ∉ emitted s t ∧ t.chan.rxBuf <:+ s.chan.rxBuf ++ rx ∧
    t.chan = { s.chan with
      rxBuf := t.chan.rxBuf, txBuf := t.chan.txBuf, sending := t.chan.sending
      sendingUserFrame := t.chan.sendingUserFrame, resumeUart := t.chan.resumeUart } ∧
    (avail = 0 → t.chan = { s.chan with rxBuf := t.chan.rxBuf })

/-- Handshake idempotence (R136): one DISPATCH raises OPEN at most once, and not at all while connected. -/
def Obligations.OpenIsRaisedOnce : Prop :=
  ∀ (s t : State) (rx : Bytes) (avail : Nat) (taken : Option Nat), exec (.dispatch rx avail taken) s = .next t →
    (emitted s t).count .opened = if s.chan.connected = false ∧ t.chan.connected = true then 1 else 0

/-- The end-to-end scenario (R140): on a fresh connected Channel that waits, the chunk of a handshake and a frame with a wrong
checksum yields OPEN, one warning, one queued reply and no frame. That the checksum is wrong rests on the constants
of decision D11 (log entry 16), and that the kind is recorded in `errors` is the model's choice (log entry 2). -/
def Obligations.EndToEndScenarioOfTheSource : Prop :=
  ∀ s : State, s.chan.alive = true → s.chan.armed = true → s.chan.waitingForStartFrame = true →
    s.chan.connected = false → s.chan.sending = false → s.chan.rxBuf = [] → s.chan.txBuf = [] →
    exec (feed ([0x22#8, 0x22#8, 0x22#8, 0x04#8, 0x22#8, 0x22#8, 0x22#8, 0x22#8, 0x22#8, 0x22#8, 0x7B#8, 0x22#8, 0x69#8, 0x64#8,
        0x22#8, 0x3A#8, 0x31#8, 0x7D#8, 0x30#8, 0x30#8, 0x30#8, 0x30#8, 0x30#8, 0x30#8, 0x30#8, 0x30#8, 0x22#8, 0x22#8,
        0x22#8])) s = .next { s with
      chan := { s.chan with
        waitingForStartFrame := false, connected := true, sending := true,
        txBuf := [0x22#8, 0x22#8, 0x22#8, 0x04#8, 0x22#8, 0x22#8, 0x22#8] }
      trace := s.trace ++ [.opened, .diagWarnChecksum]
      result := .none
      errors := s.errors ++ [.checksumMismatch] }

/-- Draining ends (R73, R203): with a driver that has room and takes at least one byte each time, at most `len(tx_buf)` PUMPs empty
`tx_buf`; every byte is written in order, and each completion event that is due is raised exactly once. The first clause is a
driver that accepts all it is offered, the second any answers of a driver that stays within what it is offered. -/
def Obligations.DrainingEndsAndCompletesOnce : Prop :=
  ∀ s : State, s.chan.alive = true → s.chan.armed = true → s.chan.sending = true → s.chan.txBuf ≠ [] →
    let drained (t : State) : Prop :=
      t.chan = { s.chan with txBuf := [], sending := false, sendingUserFrame := false, resumeUart := false } ∧
      txStream (emitted s t) = s.chan.txBuf ∧
      (emitted s t).count .frameSent = (if s.chan.sendingUserFrame = true then 1 else 0) ∧
      (emitted s t).count .consoleResume = (if s.chan.resumeUart = true then 1 else 0)
    (∀ n, 0 < n → ∃ t, execAll (drainScript n s.chan) s = .next t ∧ drained t) ∧
    (∀ (answers : List (Nat × Nat)) (t : State), (∀ p ∈ answers, 0 < p.1 ∧ 0 < p.2) →
      s.chan.txBuf.length ≤ answers.length → drainWith answers s = .next t → drained t)

/-! ## Wire formats, events and error kinds as instructions -/

/-- A wire format arrives as one chunk: what it does is what FEED of its bytes does, and it completes on every armed Channel (the
model's reading of a wire row: log entry 8; the bytes are R58, R59, R60, R62). -/
def Obligations.WireFormatsArriveAsOneChunk : Prop :=
  ∀ (s : State) (payload msg metadata : Bytes), s.chan.alive = true → s.chan.armed = true →
    (∃ t, exec .delim s = .next t ∧ exec (feed [0x22#8, 0x22#8, 0x22#8]) s = .next t) ∧
    (∃ t, exec .hsFrame s = .next t ∧
      exec (feed [0x22#8, 0x22#8, 0x22#8, 0x04#8, 0x22#8, 0x22#8, 0x22#8]) s = .next t) ∧
    (∃ t, exec (.dataFrame payload) s = .next t ∧
      exec (feed ([0x22#8, 0x22#8, 0x22#8] ++ payload ++ hex8 (crcFn payload) ++ [0x22#8, 0x22#8, 0x22#8])) s = .next t) ∧
    (∃ t, exec (.dataSpanRx msg metadata) s = .next t ∧
      exec (feed (msg ++ metadata ++ [0x22#8, 0x22#8, 0x22#8])) s = .next t)

/-- An empty span is skipped with its delimiter, and nothing else happens (R61, R83; the model's reading: log entry 9). -/
def Obligations.EmptySpanIsSkipped : Prop :=
  ∀ s : State, s.chan.alive = true → s.chan.armed = true →
    exec .emptySpan s = .next
      (if delimAt s.chan.rxBuf 0 then { s with chan := { s.chan with rxBuf := s.chan.rxBuf.drop 3 }, result := .none }
       else { s with result := .none })

/-- An event by itself is appended to the trace with the argument it is presented with, and nothing else happens (R8 `emit`, R10; the
model's reading of an event row: log entry 10). A WRITE of no bytes completes and is not emitted (decision D28). -/
def Obligations.EventsAreAppendedToTheTrace : Prop :=
  ∀ (s : State) (bytes : Bytes) (fromInterrupt : Bool), s.chan.alive = true →
    (∀ p ∈ [(Instr.evOpen, Event.opened), (.evClosed, .closed), (.evFrameReceived bytes, .frameReceived bytes),
        (.evFrameSent, .frameSent), (.evConsoleSuspend, .consoleSuspend), (.evConsoleResume, .consoleResume),
        (.evSetDispatcherOn, .setDispatcherOn), (.evSetDispatcherOff, .setDispatcherOff), (.evRxEnable, .rxEnable),
        (.evRequestDispatch fromInterrupt, .requestDispatch fromInterrupt),
        (.evDiagWarnChecksum, .diagWarnChecksum), (.evDiagErrorOversize, .diagErrorOversize)],
      exec p.1 s = .next { s with trace := s.trace ++ [p.2], result := .none }) ∧
    exec (.evWrite bytes) s = .next { s with
      trace := s.trace ++ (if bytes = [] then [] else [.write bytes]), result := .none }

/-- An error kind by itself: its diagnostic, its state effect, and no transfer of control; only OVERSIZE changes a field of the
Channel, and that is `rx_buf` (R151, R152, R153, R155; the model's reading of an error row: log entry 11). SETUP_FAILURE happens
before any CREATE: it is reported and no Channel comes into being (R154); it has no meaning once there is one (log entry 12). The
record of the kinds in `errors` is log entry 2. -/
def Obligations.ErrorKindsTakeTheirEffect : Prop :=
  ∀ s : State,
    (s.chan.alive = true →
      exec .errChecksumMismatch s = .next { s with
        trace := s.trace ++ [.diagWarnChecksum], result := .none, errors := s.errors ++ [.checksumMismatch] } ∧
      exec .errOversize s = .next { s with
        chan := { s.chan with rxBuf := [] }, trace := s.trace ++ [.diagErrorOversize], result := .none,
        errors := s.errors ++ [.oversize] } ∧
      exec .errSendRejected s = .next { s with result := .accepted false, errors := s.errors ++ [.sendRejected] } ∧
      exec .errSetupFailure s = .refused .setupIsOver) ∧
    (s.chan.alive = false →
      exec .errSetupFailure s = .next { s with result := .none, errors := s.errors ++ [.setupFailure] })

/-! ## Rules about the whole machine -/

/-- R28 items 1 to 6 are kept by every step, whatever is presented. Items 9 and 10 are kept by every instruction but CLOSE, which may
abandon bytes: nothing is queued while nothing is in flight, by itself, and with the flag invariants also that what is queued is
what is left of one frame. -/
def Obligations.ChannelInvariantIsKeptByEveryStep : Prop :=
  (∀ s t : State, ChannelInv s.chan → step s = .next t → ChannelInv t.chan) ∧
  (∀ (i : Instr) (s t : State), i ≠ .close → exec i s = .next t →
    (s.chan.sending = false → s.chan.txBuf = []) → t.chan.sending = false → t.chan.txBuf = []) ∧
  (∀ (i : Instr) (s t : State), i ≠ .close → ChannelInv s.chan → QueueInv s.chan → exec i s = .next t → QueueInv t.chan)

/-- R28 items 7 and 8 are kept by every command: between commands `rx_buf` holds no delimiter and stays bounded. -/
def Obligations.ResidueInvariantIsKeptByEveryCommand : Prop :=
  ∀ (i : Instr) (s t : State), i.format = .cmd → ResidueInv s.chan → exec i s = .next t → ResidueInv t.chan

/-- Console symmetry (R138): under commands, suspends and resumes alternate, starting with a suspend, and `resume_uart` says
which comes next. -/
def Obligations.ConsoleSuspensionIsSymmetric : Prop :=
  ∀ (i : Instr) (s t : State), i.format = .cmd → ChannelInv s.chan → ConsoleInv s → exec i s = .next t → ConsoleInv t

/-- OPEN is raised exactly once in each session that a handshake opened (R128, R136). -/
def Obligations.OneOpenPerSession : Prop :=
  ∀ (i : Instr) (s t : State), i.format = .cmd → ChannelInv s.chan → SessionInv s → exec i s = .next t → SessionInv t

/-- `connected` comes only from a handshake and goes only with CLOSE. An instruction that connects has handled a span that is the one
byte 0x04 (R91, R128), has raised OPEN and has ended the wait (R19, R193); of the commands only a DISPATCH with input does. No
timeout, no error and no received byte sequence disconnects (R135). -/
def Obligations.OnlyHandshakesConnectAndOnlyCloseDisconnects : Prop :=
  (∀ (i : Instr) (s t : State), exec i s = .next t → s.chan.connected = false → t.chan.connected = true →
    handshakeSource i s ∧ Event.opened ∈ emitted s t ∧ t.chan.waitingForStartFrame = false ∧
    (i.format = .cmd → ∃ rx avail taken, i = .dispatch rx avail taken ∧ rx ≠ [])) ∧
  (∀ (i : Instr) (s t : State), ChannelInv s.chan → exec i s = .next t → s.chan.connected = true →
    t.chan.connected = false → i = .close)

/-- The configuration is immutable: no instruction but CREATE writes it (R15, R16, R51). -/
def Obligations.OnlyCreateWritesTheConfiguration : Prop :=
  ∀ (i : Instr) (s t : State), exec i s = .next t → (∀ wait max, i ≠ .create wait max) →
    t.chan.waitForStartFrame = s.chan.waitForStartFrame ∧ t.chan.maxFrameSize = s.chan.maxFrameSize

/-- The transitions of the named states and their events (R135), from states that keep the invariant, row by row in the order of the
table; then that there are no other transitions. No reply to a handshake while sending is HS_REPLY_WHEN_BUSY = skip (decision
D8; log entry 16); that SETUP_FAILURE is not refused on a destroyed Channel is log entry 12. -/
def Obligations.NamedStatesFollowTheTransitionTable : Prop :=
  (∀ (s : State) (payload : Bytes) (console wait : Bool) (max avail : Nat), ChannelInv s.chan →
    (fsmState s.chan = .destroyed → leadsTo (.create wait max) s fun t =>
      fsmState t.chan = .disconnected ∧ emitted s t = []) ∧
    (fsmState s.chan = .disconnected ∨ fsmState s.chan = .connecting → leadsTo .connect s fun t =>
      fsmState t.chan = .connecting ∧ t.chan.waitingForStartFrame = s.chan.waitForStartFrame ∧
      emitted s t = [.setDispatcherOn, .rxEnable]) ∧
    (s.chan.connected = true → leadsTo .connect s fun t => t.chan = s.chan ∧ emitted s t = []) ∧
    (fsmState s.chan = .connecting → leadsTo .rxHandshake s fun t =>
      fsmState t.chan = .connectedSendingReply ∧ emitted s t = [.opened]) ∧
    (fsmState s.chan = .connecting → s.chan.rxBuf = [] → leadsTo (feed encodeHandshake) s fun t =>
      fsmState t.chan = .connectedSendingReply ∧ emitted s t = [.opened]) ∧
    (fsmState s.chan = .connecting → s.chan.rxBuf = [] → s.chan.txBuf.length + 7 ≤ avail →
      leadsTo (.dispatch encodeHandshake avail none) s fun t =>
        fsmState t.chan = .connectedIdle ∧ emitted s t = [.opened, .write (s.chan.txBuf ++ encodeHandshake)]) ∧
    (fsmState s.chan = .connectedIdle → leadsTo .rxHandshake s fun t =>
      fsmState t.chan = .connectedSendingReply ∧ emitted s t = []) ∧
    (fsmState s.chan = .connectedSendingReply ∨ fsmState s.chan = .connectedSendingUser →
      leadsTo .rxHandshake s fun t => t.chan = s.chan ∧ emitted s t = []) ∧
    (fsmState s.chan = .connecting ∨ s.chan.connected = true → s.chan.waitingForStartFrame = false →
      ∀ f msg, f ≠ [0x04#8] → decodeData f = .deliver msg →
        leadsTo (.rxFrame f) s fun t => t.chan = s.chan ∧ emitted s t = [.frameReceived msg]) ∧
    (fsmState s.chan = .connectedIdle → leadsTo (.send payload console) s fun t =>
      fsmState t.chan = .connectedSendingUser ∧ t.result = .accepted true ∧
      emitted s t = (if console = true then [.consoleSuspend] else []) ++ [.requestDispatch false]) ∧
    (fsmState s.chan = .disconnected ∨ fsmState s.chan = .connecting ∨ fsmState s.chan = .connectedSendingReply ∨
      fsmState s.chan = .connectedSendingUser →
      leadsTo (.send payload console) s fun t => t.chan = s.chan ∧ t.result = .accepted false ∧ emitted s t = []) ∧
    (fsmState s.chan = .connectedSendingReply → leadsTo (pump s.chan.txBuf.length) s fun t =>
      fsmState t.chan = .connectedIdle ∧ emitted s t = [.write s.chan.txBuf]) ∧
    (fsmState s.chan = .connectedSendingUser → leadsTo (pump s.chan.txBuf.length) s fun t =>
      fsmState t.chan = .connectedIdle ∧
      emitted s t = [.write s.chan.txBuf] ++ (if s.chan.resumeUart = true then [.consoleResume] else []) ++ [.frameSent]) ∧
    (fsmState s.chan ≠ .destroyed → leadsTo .close s fun t =>
      fsmState t.chan = .disconnected ∧
      emitted s t = [.setDispatcherOff] ++ (if s.chan.resumeUart = true then [.consoleResume] else []) ++ [.closed]) ∧
    (fsmState s.chan = .disconnected → leadsTo .destroy s fun t => fsmState t.chan = .destroyed ∧ emitted s t = []) ∧
    (fsmState s.chan = .destroyed → ∀ i : Instr, (∀ w m, i ≠ .create w m) → i ≠ .errSetupFailure →
      ∃ r, exec i s = .refused r)) ∧
  (∀ (i : Instr) (s t : State), ChannelInv s.chan → exec i s = .next t →
    fsmState t.chan = fsmState s.chan ∨ (fsmState s.chan, fsmState t.chan) ∈ fsmMoves i)

/-! ## Script notation -/

/-- The byte-string literal of any byte sequence is read back as that sequence (R72; the notation is decision D23). -/
def Obligations.ScriptLiteralsAreReadBack : Prop :=
  ∀ bs rest : Bytes, readBytes (writeLiteral bs ++ rest) = some (bs, rest)
end

