-- ==== Sys2Proof/Laws/State.lean ====
section
/-! SUPPORT. The small lemmas of the state: one per field for each update, each true by rfl, so that no later proof unfolds a
record update. -/

namespace Sys2Proof.Machine

/-! ## State.commit -/

@[simp] theorem commit_chan (s : State) (e : Effect) (r : OpResult) : (s.commit e r).chan = e.chan := rfl
@[simp] theorem commit_port (s : State) (e : Effect) (r : OpResult) : (s.commit e r).port = s.port := rfl
@[simp] theorem commit_trace (s : State) (e : Effect) (r : OpResult) : (s.commit e r).trace = s.trace ++ e.trace := rfl
@[simp] theorem commit_result (s : State) (e : Effect) (r : OpResult) : (s.commit e r).result = r := rfl
@[simp] theorem commit_errors (s : State) (e : Effect) (r : OpResult) : (s.commit e r).errors = s.errors ++ e.errors := rfl
@[simp] theorem commit_draws (s : State) (e : Effect) (r : OpResult) : (s.commit e r).draws = s.draws := rfl

theorem emitted_commit (s : State) (e : Effect) (r : OpResult) : emitted s (s.commit e r) = e.trace := by simp [emitted]

/-! ## Effects -/

@[simp] theorem quiet_chan (c : Channel) : (quiet c).chan = c := rfl
@[simp] theorem quiet_trace (c : Channel) : (quiet c).trace = [] := rfl
@[simp] theorem quiet_errors (c : Channel) : (quiet c).errors = [] := rfl

@[simp] theorem emit_chan (e : Event) (c : Channel) : (emit e c).chan = c := rfl
@[simp] theorem emit_trace (e : Event) (c : Channel) : (emit e c).trace = [e] := rfl
@[simp] theorem emit_errors (e : Event) (c : Channel) : (emit e c).errors = [] := rfl

@[simp] theorem andThen_chan (e : Effect) (f : Channel → Effect) : (e.andThen f).chan = (f e.chan).chan := rfl
@[simp] theorem andThen_trace (e : Effect) (f : Channel → Effect) : (e.andThen f).trace = e.trace ++ (f e.chan).trace := rfl
@[simp] theorem andThen_errors (e : Effect) (f : Channel → Effect) : (e.andThen f).errors = e.errors ++ (f e.chan).errors := rfl

/-- Two effects with the same three parts are equal. -/
theorem effect_ext {a b : Effect} (hc : a.chan = b.chan) (ht : a.trace = b.trace) (he : a.errors = b.errors) : a = b := by
  cases a; cases b; simp_all

@[simp] theorem quiet_andThen (c : Channel) (f : Channel → Effect) : (quiet c).andThen f = f c :=
  effect_ext rfl rfl rfl

@[simp] theorem andThen_quiet (e : Effect) : e.andThen quiet = e := effect_ext rfl (by simp) (by simp)

/-- Doing three things in a row does not depend on the grouping. -/
theorem andThen_assoc (e : Effect) (f g : Channel → Effect) :
    (e.andThen f).andThen g = e.andThen fun c => (f c).andThen g :=
  effect_ext rfl (by simp) (by simp)

/-- Committing two effects one after the other is committing them joined. -/
theorem commit_commit (s : State) (e : Effect) (f : Channel → Effect) (r r' : OpResult) :
    (s.commit e r).commit (f e.chan) r' = s.commit (e.andThen f) r' := by
  simp [State.commit]

/-! ## raise -/

@[simp] theorem raise_checksumMismatch_chan (c : Channel) : (raise .checksumMismatch c).chan = c := rfl
@[simp] theorem raise_checksumMismatch_trace (c : Channel) : (raise .checksumMismatch c).trace = [.diagWarnChecksum] := rfl
@[simp] theorem raise_oversize_chan (c : Channel) : (raise .oversize c).chan = { c with rxBuf := [] } := rfl
@[simp] theorem raise_oversize_trace (c : Channel) : (raise .oversize c).trace = [.diagErrorOversize] := rfl
@[simp] theorem raise_sendRejected_chan (c : Channel) : (raise .sendRejected c).chan = c := rfl
@[simp] theorem raise_sendRejected_trace (c : Channel) : (raise .sendRejected c).trace = [] := rfl
@[simp] theorem raise_setupFailure_chan (c : Channel) : (raise .setupFailure c).chan = c := rfl
@[simp] theorem raise_setupFailure_trace (c : Channel) : (raise .setupFailure c).trace = [] := rfl
@[simp] theorem raise_errors (k : ErrorKind) (c : Channel) : (raise k c).errors = [k] := by cases k <;> rfl

/-! ## RX_APPEND and prefix removal -/

@[simp] theorem rxAppend_chan (rx : Bytes) (c : Channel) : (rxAppend rx c).chan = { c with rxBuf := c.rxBuf ++ rx } := rfl
@[simp] theorem rxAppend_trace (rx : Bytes) (c : Channel) : (rxAppend rx c).trace = [] := rfl
@[simp] theorem rxAppend_errors (rx : Bytes) (c : Channel) : (rxAppend rx c).errors = [] := rfl

@[simp] theorem consumeRx_chan (n : Nat) (c : Channel) : (consumeRx n c).chan = { c with rxBuf := c.rxBuf.drop n } := rfl
@[simp] theorem consumeRx_trace (n : Nat) (c : Channel) : (consumeRx n c).trace = [] := rfl
@[simp] theorem consumeRx_errors (n : Nat) (c : Channel) : (consumeRx n c).errors = [] := rfl

/-! ## RX_HANDSHAKE -/

@[simp] theorem rxHandshake_rxBuf (c : Channel) : (rxHandshake c).chan.rxBuf = c.rxBuf := rfl
@[simp] theorem rxHandshake_waiting (c : Channel) : (rxHandshake c).chan.waitingForStartFrame = false := rfl
@[simp] theorem rxHandshake_connected (c : Channel) : (rxHandshake c).chan.connected = true := rfl
@[simp] theorem rxHandshake_armed (c : Channel) : (rxHandshake c).chan.armed = c.armed := rfl
@[simp] theorem rxHandshake_alive (c : Channel) : (rxHandshake c).chan.alive = c.alive := rfl
@[simp] theorem rxHandshake_userFrame (c : Channel) : (rxHandshake c).chan.sendingUserFrame = c.sendingUserFrame := rfl
@[simp] theorem rxHandshake_resume (c : Channel) : (rxHandshake c).chan.resumeUart = c.resumeUart := rfl
@[simp] theorem rxHandshake_waitFor (c : Channel) : (rxHandshake c).chan.waitForStartFrame = c.waitForStartFrame := rfl
@[simp] theorem rxHandshake_maxFrame (c : Channel) : (rxHandshake c).chan.maxFrameSize = c.maxFrameSize := rfl
@[simp] theorem rxHandshake_errors (c : Channel) : (rxHandshake c).errors = [] := rfl
@[simp] theorem rxHandshake_trace (c : Channel) : (rxHandshake c).trace = if c.connected then [] else [.opened] := rfl

@[simp] theorem rxHandshake_sending (c : Channel) : (rxHandshake c).chan.sending = true := by
  cases h : c.sending <;> simp [rxHandshake, rxHandshakeWith, replyDue, hsReplyWhenBusy, h]

@[simp] theorem rxHandshake_txBuf (c : Channel) :
    (rxHandshake c).chan.txBuf = if c.sending = true then c.txBuf else c.txBuf ++ encodeHandshake := by
  cases h : c.sending <;> simp [rxHandshake, rxHandshakeWith, replyDue, hsReplyWhenBusy, memWrite, h]

/-! ## The transmit phase -/

@[simp] theorem txWrite_chan (taken : Nat) (c : Channel) : (txWrite taken c).chan = { c with txBuf := c.txBuf.drop taken } := rfl
@[simp] theorem txWrite_trace (taken : Nat) (c : Channel) :
    (txWrite taken c).trace = if taken = 0 then [] else [.write (c.txBuf.take taken)] := rfl
@[simp] theorem txWrite_errors (taken : Nat) (c : Channel) : (txWrite taken c).errors = [] := rfl

/-! ## Commands -/

@[simp] theorem closeChannel_chan (c : Channel) :
    (closeChannel c).chan =
      { c with armed := false, connected := false, sending := false, sendingUserFrame := false, resumeUart := false } := rfl
@[simp] theorem closeChannel_errors (c : Channel) : (closeChannel c).errors = [] := rfl

@[simp] theorem destroyChannel_chan (c : Channel) :
    (destroyChannel c).chan = { c with rxBuf := [], txBuf := [], alive := false } := rfl
@[simp] theorem destroyChannel_trace (c : Channel) : (destroyChannel c).trace = [] := rfl
@[simp] theorem destroyChannel_errors (c : Channel) : (destroyChannel c).errors = [] := rfl

@[simp] theorem createChannel_chan (wait : Bool) (max : Nat) : (createChannel wait max).chan = Channel.created wait max := rfl
@[simp] theorem createChannel_trace (wait : Bool) (max : Nat) : (createChannel wait max).trace = [] := rfl
@[simp] theorem createChannel_errors (wait : Bool) (max : Nat) : (createChannel wait max).errors = [] := rfl

/-! ## The port -/

@[simp] theorem present_port (item : PortItem) (s : State) : (present item s).port = item :: s.port := rfl
@[simp] theorem present_chan (item : PortItem) (s : State) : (present item s).chan = s.chan := rfl
@[simp] theorem present_trace (item : PortItem) (s : State) : (present item s).trace = s.trace := rfl
@[simp] theorem present_result (item : PortItem) (s : State) : (present item s).result = s.result := rfl
@[simp] theorem present_errors (item : PortItem) (s : State) : (present item s).errors = s.errors := rfl
@[simp] theorem present_draws (item : PortItem) (s : State) : (present item s).draws = s.draws := rfl

end Sys2Proof.Machine
end

