-- ==== Sys2Proof/Laws/Operands.lean ====
section
/-! SUPPORT. What the operand functions can answer: the delimiter scan, the split point, the decoder's verdicts, the hexadecimal
conversions. One lemma per function, for callers to cite instead of unfolding it. -/

namespace Sys2Proof.Machine

open Sys2Proof.Config

/-! ## findDelim -/

@[simp] theorem findDelim_nil : findDelim [] = none := rfl

theorem findDelim_cons (b : Byte) (rest : Bytes) :
    findDelim (b :: rest) = if delim.isPrefixOf (b :: rest) then some 0 else (findDelim rest).map (· + 1) := rfl

/-- A delimiter at the front, byte by byte. -/
theorem isPrefixOf_delim (buf : Bytes) : delim.isPrefixOf buf = true ↔ delimAt buf 0 := by
  match buf with
  | [] => simp [delimAt]
  | [_] => simp [delimAt]
  | [_, _] => simp [delimAt]
  | a :: b :: c :: rest =>
    simp only [List.isPrefixOf, delimAt, Bool.and_eq_true, beq_iff_eq, List.getElem?_cons_zero, List.getElem?_cons_succ,
      Option.some.injEq, and_true, Nat.zero_add]
    constructor <;> (rintro ⟨h1, h2, h3⟩; exact ⟨h1.symm, h2.symm, h3.symm⟩)

theorem delimAt_cons_succ (b : Byte) (rest : Bytes) (i : Nat) : delimAt (b :: rest) (i + 1) ↔ delimAt rest i := by
  simp [delimAt]

/-- A delimiter lies inside the buffer. -/
theorem delimAt_lt {buf : Bytes} {i : Nat} (h : delimAt buf i) : i + 3 ≤ buf.length := by
  obtain ⟨_, _, h2⟩ := h
  have := (List.getElem?_eq_some_iff.mp h2).1
  omega

/-- Everything a successful scan says (R80): a delimiter stands at `k` and none before. -/
theorem findDelim_eq_some {buf : Bytes} {k : Nat} :
    findDelim buf = some k ↔ delimAt buf k ∧ ∀ j, j < k → ¬ delimAt buf j := by
  induction buf generalizing k with
  | nil => simp [delimAt]
  | cons b rest ih =>
    rw [findDelim_cons]
    by_cases h : delim.isPrefixOf (b :: rest) = true
    · have h0 := (isPrefixOf_delim _).mp h
      simp only [h, if_true, Option.some.injEq]
      constructor
      · rintro rfl
        exact ⟨h0, by omega⟩
      · rintro ⟨_, hj⟩
        by_contra hk
        exact hj 0 (by omega) h0
    · have h0 : ¬ delimAt (b :: rest) 0 := fun hd => h ((isPrefixOf_delim _).mpr hd)
      simp only [h]
      cases k with
      | zero => simp [h0]
      | succ k =>
        have hmap : (findDelim rest).map (· + 1) = some (k + 1) ↔ findDelim rest = some k := by
          cases findDelim rest <;> simp
        simp only [Bool.false_eq_true, if_false]
        rw [hmap, ih, delimAt_cons_succ]
        constructor
        · rintro ⟨hk, hj⟩
          refine ⟨hk, fun j hlt => ?_⟩
          cases j with
          | zero => exact h0
          | succ j => rw [delimAt_cons_succ]; exact hj j (by omega)
        · rintro ⟨hk, hj⟩
          refine ⟨hk, fun j hlt hd => hj (j + 1) (by omega) ?_⟩
          rwa [delimAt_cons_succ]

/-- Everything a failing scan says (R80): no delimiter anywhere. -/
theorem findDelim_eq_none {buf : Bytes} : findDelim buf = none ↔ noDelim buf := by
  constructor
  · intro h i hd
    have hex : ∃ i, delimAt buf i := ⟨i, hd⟩
    have hk : findDelim buf = some (Nat.find hex) :=
      findDelim_eq_some.mpr ⟨Nat.find_spec hex, fun j hj => Nat.find_min hex hj⟩
    simp [h] at hk
  · intro h
    cases hf : findDelim buf with
    | none => rfl
    | some k => exact absurd (findDelim_eq_some.mp hf).1 (h k)

/-- The span and its closing delimiter fit in the buffer. -/
theorem findDelim_le {buf : Bytes} {k : Nat} (h : findDelim buf = some k) : k + 3 ≤ buf.length :=
  delimAt_lt (findDelim_eq_some.mp h).1

/-- Bytes behind the delimiter that was found do not move it. -/
theorem findDelim_append {buf : Bytes} {k : Nat} (h : findDelim buf = some k) (more : Bytes) :
    findDelim (buf ++ more) = some k := by
  have hle := findDelim_le h
  rw [findDelim_eq_some] at h ⊢
  have hsame : ∀ j, j ≤ k → (delimAt (buf ++ more) j ↔ delimAt buf j) := by
    intro j hj
    simp only [delimAt]
    rw [List.getElem?_append_left (by omega), List.getElem?_append_left (by omega), List.getElem?_append_left (by omega)]
  exact ⟨(hsame k le_rfl).mpr h.1, fun j hj hd => h.2 j hj ((hsame j (by omega)).mp hd)⟩

/-! ## splitMeta -/

theorem splitMeta_le (f : Bytes) : splitMeta f ≤ f.length := by
  have := (List.dropWhile_suffix (l := f.reverse) (· != rbrace)).length_le
  simpa [splitMeta] using this

/-- The split point of a message that ends with `}` and metadata without one (R64, R93). -/
theorem splitMeta_append {msg metadata : Bytes} (hm : msg ≠ [] → msg.getLast? = some rbrace) (hd : rbrace ∉ metadata) :
    splitMeta (msg ++ metadata) = msg.length := by
  have hskip : ∀ b ∈ metadata.reverse, (b != rbrace) = true := by
    intro b hb
    have : b ≠ rbrace := fun h => hd (h ▸ List.mem_reverse.mp hb)
    simpa using this
  have hrest : msg.reverse.dropWhile (· != rbrace) = msg.reverse := by
    rcases List.eq_nil_or_concat msg with rfl | ⟨init, last, rfl⟩
    · rfl
    · have : last = rbrace := by simpa using hm
      simp [this]
  simp [splitMeta, List.reverse_append, List.dropWhile_append_of_pos hskip, hrest]

/-- Every span is a message, empty or ending with `}`, and metadata without a `}` (R62). -/
theorem splitMeta_spec (f : Bytes) :
    (f.take (splitMeta f) ≠ [] → (f.take (splitMeta f)).getLast? = some rbrace) ∧ rbrace ∉ f.drop (splitMeta f) := by
  induction f using List.reverseRecOn with
  | nil => simp
  | append_singleton init b ih =>
    by_cases hb : b = rbrace
    · have hs : splitMeta (init ++ [b]) = (init ++ [b]).length := by simp [splitMeta, hb]
      rw [hs, List.take_length, List.drop_length]
      simp [hb]
    · have hs : splitMeta (init ++ [b]) = splitMeta init := by simp [splitMeta, hb]
      have hle := splitMeta_le init
      rw [hs, List.take_append_of_le_length hle, List.drop_append_of_le_length hle]
      refine ⟨ih.1, fun hmem => ?_⟩
      rcases List.mem_append.mp hmem with h | h
      · exact ih.2 h
      · simp at h; exact hb h.symm

/-! ## Reads past the end -/

@[simp] theorem freeBytes_length (draws n : Nat) : (freeBytes draws n).length = n := by simp [freeBytes]

@[simp] theorem freeBytes_zero (draws : Nat) : freeBytes draws 0 = [] := rfl

theorem missing_of_le {buf : Bytes} {n : Nat} (h : n ≤ buf.length) : missing buf n = 0 := Nat.sub_eq_zero_of_le h

/-- A read inside the sequence is `MemRead`: nothing free in it (R8). -/
theorem readPast_of_le (draws : Nat) {buf : Bytes} {n : Nat} (h : n ≤ buf.length) : readPast draws buf n = memRead buf 0 n := by
  simp [readPast, missing_of_le h]

/-- A read of `n` bytes gives `n` bytes, past the end too. -/
@[simp] theorem readPast_length (draws : Nat) (buf : Bytes) (n : Nat) : (readPast draws buf n).length = n := by
  simp [readPast, memRead, missing]; omega

/-! ## Decoding and encoding -/

/-- A delivered message is the non-empty part before the split point (R97 h). -/
theorem decodeDataWith_deliver {policy : NonhexMetaPolicy} {f msg : Bytes} (h : decodeDataWith policy f = .deliver msg) :
    msg = f.take (splitMeta f) ∧ splitMeta f ≠ 0 := by
  unfold decodeDataWith at h
  simp only at h
  split at h
  · cases h
  · rename_i hm
    split at h
    · cases h; exact ⟨rfl, hm⟩
    · cases h; exact ⟨rfl, hm⟩
    · cases h
    · split at h
      · cases h; exact ⟨rfl, hm⟩
      · cases h

theorem decodeData_deliver_ne_nil {f msg : Bytes} (h : decodeData f = .deliver msg) : msg ≠ [] := by
  obtain ⟨rfl, hm⟩ := decodeDataWith_deliver h
  have hle := splitMeta_le f
  intro h0
  have hlen : (f.take (splitMeta f)).length = 0 := by rw [h0]; rfl
  rw [List.length_take] at hlen
  omega

@[simp] theorem classify_handshake_iff (f : Bytes) : classify f = .handshake ↔ f = [hsByte] := by
  unfold classify; split <;> simp_all

@[simp] theorem classify_data_iff (f : Bytes) : classify f = .data ↔ f ≠ [hsByte] := by
  unfold classify; split <;> simp_all

@[simp] theorem hex8_length (v : Word32) : (hex8 v).length = 8 := by simp [hex8]

@[simp] theorem encodeFrame_length (payload : Bytes) : (encodeFrame payload).length = payload.length + 14 := by
  simp [encodeFrame]

@[simp] theorem encodeHandshake_length : encodeHandshake.length = 7 := rfl

end Sys2Proof.Machine
end

