-- ==== Sys2Proof/Laws/Ops.lean ====
section
/-! SUPPORT. What each shared operation can do, said once: the guards, the receive side (`Receives`), POST_RX, the transmit
phase, and DISPATCH as a whole. -/

namespace Sys2Proof.Machine

open Sys2Proof.Config

/-! ## Guards -/

theorem whenAlive_next {s t : State} {o : Out} : whenAlive s o = .next t ↔ s.chan.alive = true ∧ o = .next t := by
  unfold whenAlive; split <;> simp_all

theorem whenArmed_next {s t : State} {o : Out} :
    whenArmed s o = .next t ↔ s.chan.alive = true ∧ s.chan.armed = true ∧ o = .next t := by
  unfold whenArmed; rw [whenAlive_next]; split <;> simp_all

theorem done_next {s t : State} {e : Effect} {r : OpResult} : done s e r = .next t ↔ t = s.commit e r := by
  simp [done, eq_comm]

/-- A pure operation changes nothing but the result (R90, R93, R96, R103, R106, R107, R109, R114, R117). -/
theorem answer_next {s t : State} {r : OpResult} :
    answer s r = .next t ↔ s.chan.alive = true ∧ t = { s with result := r } := by
  unfold answer
  rw [whenAlive_next, done_next]
  simp [State.commit]

/-- An operation that draws free bytes counts them, and does nothing else with the counter (log entry 26). -/
theorem doneDrawing_next {s t : State} {n : Nat} {e : Effect} {r : OpResult} :
    doneDrawing s n e r = .next t ↔ t = { s.commit e r with draws := s.draws + n } := by
  unfold doneDrawing; rw [done_next]; rfl

/-- An operation that draws no free byte is one that completes as any other. -/
@[simp] theorem doneDrawing_zero (s : State) (e : Effect) (r : OpResult) : doneDrawing s 0 e r = done s e r := rfl

theorem phase_next {s t : State} {f : Channel → Effect} :
    phase s f = .next t ↔ s.chan.alive = true ∧ s.chan.armed = true ∧ t = s.commit (f s.chan) .none := by
  unfold phase; rw [whenArmed_next, done_next]

theorem emitAlone_next {s t : State} {e : Event} :
    emitAlone s e = .next t ↔ s.chan.alive = true ∧ t = { s with trace := s.trace ++ [e], result := .none } := by
  unfold emitAlone
  rw [whenAlive_next, done_next]
  simp [State.commit]

/-! ## Receiving -/

/-- Everything handling spans can do to a Channel (R124, R125, R128): the configuration, `armed`, `alive`, `sending_user_frame`
and `resume_uart` stay; either no handshake was seen, or one was; and only three events can be emitted. -/
structure Receives (c : Channel) (e : Effect) : Prop where
  waitFor : e.chan.waitForStartFrame = c.waitForStartFrame
  maxFrame : e.chan.maxFrameSize = c.maxFrameSize
  userFrame : e.chan.sendingUserFrame = c.sendingUserFrame
  resume : e.chan.resumeUart = c.resumeUart
  armed : e.chan.armed = c.armed
  alive : e.chan.alive = c.alive
  session :
    (e.chan.connected = c.connected ∧ e.chan.waitingForStartFrame = c.waitingForStartFrame ∧ e.chan.sending = c.sending ∧
      e.chan.txBuf = c.txBuf ∧ e.trace.count .opened = 0) ∨
    (e.chan.connected = true ∧ e.chan.waitingForStartFrame = false ∧ e.chan.sending = true ∧
      e.chan.txBuf = (if c.sending = true then c.txBuf else c.txBuf ++ encodeHandshake) ∧
      e.trace.count .opened = (if c.connected = true then 0 else 1))
  events : ∀ ev ∈ e.trace, ev = .opened ∨ ev = .diagWarnChecksum ∨ ∃ msg, msg ≠ [] ∧ ev = .frameReceived msg

theorem receives_quiet (c : Channel) : Receives c (quiet c) :=
  ⟨rfl, rfl, rfl, rfl, rfl, rfl, .inl ⟨rfl, rfl, rfl, rfl, rfl⟩, by simp⟩

/-- A change of `rx_buf` alone is no event of the session. -/
theorem receives_rxBuf (c : Channel) (buf : Bytes) : Receives c (quiet { c with rxBuf := buf }) :=
  ⟨rfl, rfl, rfl, rfl, rfl, rfl, .inl ⟨rfl, rfl, rfl, rfl, rfl⟩, by simp⟩

theorem receives_rxHandshake (c : Channel) : Receives c (rxHandshake c) := by
  refine ⟨rfl, rfl, rfl, rfl, rfl, rfl, .inr ⟨rfl, rfl, by simp, by simp, ?_⟩, ?_⟩
  · cases h : c.connected <;> simp [h]
  · cases h : c.connected <;> simp [h]

theorem receives_rxData (f : Bytes) (c : Channel) : Receives c (rxData f c) := by
  unfold rxData
  split
  · rename_i msg h
    exact ⟨rfl, rfl, rfl, rfl, rfl, rfl, .inl ⟨rfl, rfl, rfl, rfl, by simp⟩, by
      simpa using decodeData_deliver_ne_nil h⟩
  · exact ⟨rfl, rfl, rfl, rfl, rfl, rfl, .inl ⟨rfl, rfl, rfl, rfl, by simp⟩, by simp⟩
  · exact receives_quiet c

theorem receives_rxFrame (f : Bytes) (c : Channel) : Receives c (rxFrame f c) := by
  unfold rxFrame
  split
  · exact receives_rxHandshake c
  · split
    · exact receives_quiet c
    · exact receives_rxData f c

/-- Handling a span leaves `rx_buf` alone: EXTRACT_ONE removes it afterwards (R82, R125). -/
@[simp] theorem rxData_rxBuf (f : Bytes) (c : Channel) : (rxData f c).chan.rxBuf = c.rxBuf := by
  unfold rxData; split <;> rfl

@[simp] theorem rxFrame_rxBuf (f : Bytes) (c : Channel) : (rxFrame f c).chan.rxBuf = c.rxBuf := by
  unfold rxFrame; split
  · rfl
  · split <;> simp

theorem receives_andThen {c : Channel} {e : Effect} {f : Channel → Effect} (h : Receives c e) (h' : Receives e.chan (f e.chan)) :
    Receives c (e.andThen f) := by
  refine ⟨h'.waitFor.trans h.waitFor, h'.maxFrame.trans h.maxFrame, h'.userFrame.trans h.userFrame,
    h'.resume.trans h.resume, h'.armed.trans h.armed, h'.alive.trans h.alive, ?_, ?_⟩
  · simp only [andThen_chan, andThen_trace, List.count_append]
    rcases h.session with ⟨a1, a2, a3, a4, a5⟩ | ⟨a1, a2, a3, a4, a5⟩ <;>
      rcases h'.session with ⟨b1, b2, b3, b4, b5⟩ | ⟨b1, b2, b3, b4, b5⟩
    · exact .inl ⟨b1.trans a1, b2.trans a2, b3.trans a3, b4.trans a4, by omega⟩
    · refine .inr ⟨b1, b2, b3, ?_, ?_⟩
      · rw [b4, a3, a4]
      · rw [a5, b5, a1]; simp
    · exact .inr ⟨b1.trans a1, b2.trans a2, b3.trans a3, b4.trans a4, by omega⟩
    · refine .inr ⟨b1, b2, b3, ?_, ?_⟩
      · rw [b4, a3]; simpa using a4
      · rw [b5, a1, a5]; simp
  · intro ev hev
    rw [andThen_trace, List.mem_append] at hev
    exact hev.elim (h.events ev) (h'.events ev)

theorem receives_extractSpan (f : Bytes) (k : Nat) (c : Channel) : Receives c (extractSpan f k c) := by
  unfold extractSpan
  split
  · exact receives_andThen (receives_quiet c) (receives_rxBuf c _)
  · exact receives_andThen (receives_rxFrame _ c) (receives_rxBuf _ _)

theorem receives_extractOne (k : Nat) (c : Channel) : Receives c (extractOne k c) := receives_extractSpan _ k c

@[simp] theorem extractSpan_rxBuf (f : Bytes) (k : Nat) (c : Channel) :
    (extractSpan f k c).chan.rxBuf = c.rxBuf.drop (k + 3) := by
  unfold extractSpan; split <;> simp

@[simp] theorem extractOne_rxBuf (k : Nat) (c : Channel) : (extractOne k c).chan.rxBuf = c.rxBuf.drop (k + 3) :=
  extractSpan_rxBuf _ k c

theorem receives_extractLoop (n : Nat) (c : Channel) : Receives c (extractLoop n c) := by
  induction n generalizing c with
  | zero => exact receives_quiet c
  | succ n ih =>
    unfold extractLoop
    split
    · exact receives_quiet c
    · exact receives_andThen (receives_extractOne _ c) (ih _)

theorem receives_extractFrames (c : Channel) : Receives c (extractFrames c) := receives_extractLoop _ c

/-- EXTRACT_ONE as an instruction, at an offset inside the buffer: the operation of the loop, and nothing is drawn (R82). -/
theorem execExtractOne_inside {s t : State} {k : Nat} (h : k ≤ s.chan.rxBuf.length) :
    execExtractOne k s = .next t ↔
      s.chan.alive = true ∧ s.chan.armed = true ∧ t = s.commit (extractOne k s.chan) .none := by
  unfold execExtractOne
  rw [whenArmed_next, missing_of_le h, readPast_of_le _ h, doneDrawing_zero, done_next]
  rfl

/-- The loop ends with no delimiter left, on a suffix of the buffer (R84): its bound is never what stops it. -/
theorem extractLoop_rxBuf (n : Nat) (c : Channel) (h : c.rxBuf.length < 3 * (n + 1)) :
    findDelim (extractLoop n c).chan.rxBuf = none ∧ (extractLoop n c).chan.rxBuf <:+ c.rxBuf := by
  induction n generalizing c with
  | zero =>
    refine ⟨?_, List.suffix_rfl⟩
    cases hf : findDelim c.rxBuf with
    | none => exact hf
    | some k => have := findDelim_le hf; omega
  | succ n ih =>
    unfold extractLoop
    split
    · rename_i hf; exact ⟨hf, List.suffix_rfl⟩
    · rename_i k hf
      have hle := findDelim_le hf
      have hr := extractOne_rxBuf k c
      have := ih (extractOne k c).chan (by rw [hr, List.length_drop]; omega)
      exact ⟨this.1, this.2.trans (hr ▸ List.drop_suffix _ _)⟩

theorem extractFrames_rxBuf (c : Channel) :
    findDelim (extractFrames c).chan.rxBuf = none ∧ (extractFrames c).chan.rxBuf <:+ c.rxBuf :=
  extractLoop_rxBuf _ c (by simp only [delimLen]; omega)

/-- With no delimiter in the buffer nothing happens at all (R84). -/
theorem extractLoop_none (n : Nat) (c : Channel) (h : findDelim c.rxBuf = none) : extractLoop n c = quiet c := by
  cases n with
  | zero => rfl
  | succ n => simp [extractLoop, h]

theorem extractFrames_none (c : Channel) (h : findDelim c.rxBuf = none) : extractFrames c = quiet c :=
  extractLoop_none _ c h

/-- Any sufficient bound gives the same extraction. -/
theorem extractLoop_bound (n m : Nat) (c : Channel) (hn : c.rxBuf.length < 3 * (n + 1)) (hm : c.rxBuf.length < 3 * (m + 1)) :
    extractLoop n c = extractLoop m c := by
  induction n generalizing c m with
  | zero =>
    have : findDelim c.rxBuf = none := by
      cases hf : findDelim c.rxBuf with
      | none => rfl
      | some k => have := findDelim_le hf; omega
    rw [extractLoop_none _ c this, extractLoop_none _ c this]
  | succ n ih =>
    cases hf : findDelim c.rxBuf with
    | none => rw [extractLoop_none _ c hf, extractLoop_none _ c hf]
    | some k =>
      have hle := findDelim_le hf
      cases m with
      | zero => omega
      | succ m =>
        have hlen : (extractOne k c).chan.rxBuf.length = c.rxBuf.length - (k + 3) := by
          rw [extractOne_rxBuf, List.length_drop]
        have := ih m (extractOne k c).chan (by omega) (by omega)
        simp only [extractLoop, hf]
        exact effect_ext (by simp [this]) (by simp [this]) (by simp [this])

/-- One turn of the extraction (R84). -/
theorem extractFrames_some {c : Channel} {k : Nat} (h : findDelim c.rxBuf = some k) :
    extractFrames c = (extractOne k c).andThen extractFrames := by
  have hle := findDelim_le h
  obtain ⟨n, hn⟩ : ∃ n, c.rxBuf.length / delimLen = n + 1 := ⟨c.rxBuf.length / 3 - 1, by simp only [delimLen]; omega⟩
  have hlen : (extractOne k c).chan.rxBuf.length = c.rxBuf.length - (k + 3) := by
    rw [extractOne_rxBuf, List.length_drop]
  have hb : extractLoop n (extractOne k c).chan = extractFrames (extractOne k c).chan := by
    apply extractLoop_bound
    · rw [hlen]; simp only [delimLen] at hn; omega
    · simp only [delimLen]; omega
  have hl : extractFrames c = (extractOne k c).andThen (extractLoop n) := by
    unfold extractFrames; rw [hn]; simp only [extractLoop, h]
  rw [hl]
  exact effect_ext (by simp [hb]) (by simp [hb]) (by simp [hb])

/-! ## POST_RX -/

/-- POST_RX is one of three things (R126). -/
theorem postRx_cases (c : Channel) :
    (c.maxFrameSize + 6 < c.rxBuf.length ∧ postRx c = raise .oversize c) ∨
    (c.rxBuf.length ≤ c.maxFrameSize + 6 ∧ c.waitingForStartFrame = true ∧ 3 < c.rxBuf.length ∧
      postRx c = quiet { c with rxBuf := c.rxBuf.drop (c.rxBuf.length - 3) }) ∨
    (c.rxBuf.length ≤ c.maxFrameSize + 6 ∧ (c.waitingForStartFrame = false ∨ c.rxBuf.length ≤ 3) ∧ postRx c = quiet c) := by
  by_cases ho : c.maxFrameSize + 6 < c.rxBuf.length
  · refine .inl ⟨ho, ?_⟩
    have h1 : oversized c = true := by simp [oversized, delimLen]; omega
    have h2 : trimDue { c with rxBuf := [] } = false := by simp [trimDue]
    simp only [postRx, h1, if_true]
    exact effect_ext (by simp [trimWaiting, h2]) (by simp [trimWaiting, h2]) (by simp [trimWaiting, h2])
  · have h1 : oversized c = false := by simp [oversized, delimLen]; omega
    by_cases ht : c.waitingForStartFrame = true ∧ 3 < c.rxBuf.length
    · refine .inr (.inl ⟨by omega, ht.1, ht.2, ?_⟩)
      have h2 : trimDue c = true := by simp [trimDue, delimLen, ht.1, ht.2]
      simp [postRx, h1, trimWaiting, h2, consumeRx, consume, delimLen]
    · refine .inr (.inr ⟨by omega, ?_, ?_⟩)
      · by_cases hw : c.waitingForStartFrame = true
        · right; by_contra hlt; exact ht ⟨hw, by omega⟩
        · left; simpa using hw
      · have h2 : trimDue c = false := by
          by_cases hw : c.waitingForStartFrame = true
          · simp only [trimDue, hw, Bool.true_and, decide_eq_false_iff_not, delimLen]
            intro h; exact ht ⟨hw, h⟩
          · simp [trimDue, hw]
        simp [postRx, h1, trimWaiting, h2]

/-- POST_RX changes `rx_buf` only, to a suffix within the threshold, and emits at most the OVERSIZE diagnostic (R45, R126). -/
theorem postRx_spec (c : Channel) :
    (postRx c).chan = { c with rxBuf := (postRx c).chan.rxBuf } ∧ (postRx c).chan.rxBuf <:+ c.rxBuf ∧
      (postRx c).chan.rxBuf.length ≤ c.maxFrameSize + 6 ∧
      ((postRx c).trace = [] ∨ (postRx c).trace = [.diagErrorOversize]) := by
  rcases postRx_cases c with ⟨_, h⟩ | ⟨h1, _, h3, h⟩ | ⟨h1, _, h⟩ <;> rw [h]
  · exact ⟨rfl, List.nil_suffix, by simp, .inr rfl⟩
  · exact ⟨rfl, List.drop_suffix _ _, by simp; omega, .inl rfl⟩
  · exact ⟨rfl, List.suffix_rfl, h1, .inl rfl⟩

/-! ## The transmit phase -/

/-- The transmit phase does nothing, or writes a part, or writes the rest and completes (R127). -/
theorem transmitPhase_cases (avail taken : Nat) (c : Channel) (h : taken ≤ min c.txBuf.length avail) :
    ((c.sending = false ∨ avail = 0) ∧ transmitPhase avail taken c = quiet c) ∨
    (c.sending = true ∧ 0 < avail ∧ taken < c.txBuf.length ∧ transmitPhase avail taken c = txWrite taken c) ∨
    (c.sending = true ∧ 0 < avail ∧ taken = c.txBuf.length ∧ transmitPhase avail taken c =
      { chan := { c with txBuf := [], sending := false, resumeUart := false, sendingUserFrame := false }
        trace := (if c.txBuf = [] then [] else [.write c.txBuf]) ++
          ((if c.resumeUart then [.consoleResume] else []) ++ (if c.sendingUserFrame then [.frameSent] else []))
        errors := [] }) := by
  by_cases hd : c.sending = true ∧ 0 < avail
  · have hdr : drains c avail = true := by simp [drains, hd.1, hd.2]
    by_cases hlt : taken < c.txBuf.length
    · refine .inr (.inl ⟨hd.1, hd.2, hlt, ?_⟩)
      have hne : c.txBuf.drop taken ≠ [] := by
        intro h0; have := congrArg List.length h0; simp at this; omega
      simp only [transmitPhase, hdr, if_true, txDrain]
      exact effect_ext (by simp [txComplete, hne]) (by simp [txComplete, hne]) (by simp [txComplete, hne])
    · have heq : taken = c.txBuf.length := by omega
      refine .inr (.inr ⟨hd.1, hd.2, heq, ?_⟩)
      subst heq
      simp only [transmitPhase, hdr, if_true, txDrain]
      have hw : txWrite c.txBuf.length c =
          { chan := { c with txBuf := [] }, trace := if c.txBuf = [] then [] else [.write c.txBuf], errors := [] } := by
        simp only [txWrite, consume, memRead, List.drop_zero, List.take_length, List.drop_length, List.length_eq_zero_iff]
      rw [hw]
      rfl
  · refine .inl ⟨?_, ?_⟩
    · by_cases hs : c.sending = true
      · right; by_contra h0; exact hd ⟨hs, by omega⟩
      · left; simpa using hs
    · have hdr : drains c avail = false := by
        by_cases hs : c.sending = true
        · have : avail = 0 := by by_contra h0; exact hd ⟨hs, by omega⟩
          simp [drains, this]
        · simp [drains, hs]
      simp [transmitPhase, hdr]

/-- The transmit phase moves bytes from the front of `tx_buf` to the TX stream and loses none (R47). -/
theorem transmitPhase_conserves (avail taken : Nat) (c : Channel) (h : taken ≤ min c.txBuf.length avail) :
    c.txBuf = txStream (transmitPhase avail taken c).trace ++ (transmitPhase avail taken c).chan.txBuf := by
  rcases transmitPhase_cases avail taken c h with ⟨_, h⟩ | ⟨_, _, _, h⟩ | ⟨_, _, _, h⟩ <;> rw [h]
  · simp [txStream]
  · by_cases h0 : taken = 0 <;> simp [txStream, eventTx, h0]
  · cases c.resumeUart <;> cases c.sendingUserFrame <;> by_cases h0 : c.txBuf = [] <;> simp [txStream, eventTx, h0]

/-! ## DISPATCH -/

/-- Everything a DISPATCH that completes did (R122): its effect is the receive phase and then the transmit phase, with an answer
of the driver that is within what it was offered. -/
theorem dispatchChannel_next {rx : Bytes} {avail : Nat} {taken : Option Nat} {s t : State} :
    dispatchChannel rx avail taken s = .next t ↔
      s.chan.alive = true ∧ s.chan.armed = true ∧
      taken.getD (offered (receivePhase rx s.chan).chan avail) ≤ offered (receivePhase rx s.chan).chan avail ∧
      t = s.commit ((receivePhase rx s.chan).andThen
        (transmitPhase avail (taken.getD (offered (receivePhase rx s.chan).chan avail)))) .none := by
  unfold dispatchChannel
  rw [whenArmed_next]
  simp only
  split <;> rename_i h
  · rw [done_next]
    constructor
    · rintro ⟨a, b, e⟩; exact ⟨a, b, h, e⟩
    · rintro ⟨a, b, _, e⟩; exact ⟨a, b, e⟩
  · constructor
    · rintro ⟨_, _, e⟩; cases e
    · rintro ⟨_, _, e, _⟩; exact absurd e h

/-- The receive phase: nothing without input; otherwise the extraction of everything held, and then POST_RX (R122). -/
theorem receivePhase_cases (rx : Bytes) (c : Channel) :
    (rx = [] ∧ receivePhase rx c = quiet c) ∨
    (rx ≠ [] ∧ receivePhase rx c = (extractFrames { c with rxBuf := c.rxBuf ++ rx }).andThen postRx) := by
  by_cases h : rx = []
  · exact .inl ⟨h, by simp [receivePhase, h]⟩
  · refine .inr ⟨h, ?_⟩
    simp [receivePhase, h, rxAppend, memWrite]

/-- A wire format that arrives completes exactly when FEED of its bytes does: the Channel is alive and armed. -/
theorem arrive_next {bytes : Bytes} {s t : State} :
    arrive bytes s = .next t ↔ s.chan.alive = true ∧ s.chan.armed = true ∧ t = s.commit (receivePhase bytes s.chan) .none := by
  unfold arrive
  rw [dispatchChannel_next]
  have h : ∀ c, transmitPhase 0 0 c = quiet c := by intro c; simp [transmitPhase, drains]
  have hz : (receivePhase bytes s.chan).andThen (transmitPhase 0 0) = receivePhase bytes s.chan :=
    effect_ext (by simp [h]) (by simp [h]) (by simp [h])
  simp [offered, hz]

end Sys2Proof.Machine
end

