-- ==== Sys2Proof/Laws/PerInstr.lean ====
section
/-! SUPPORT. Statements made for every instruction, one lemma per constructor. -/

namespace Sys2Proof.Laws.EncodePort

/-- The encoder presents an instruction on the port of its row of the opcode table (R69 to R71, R74). -/
def Statement (i : Instr) : Prop := (encode i).format = i.format

theorem delim : Statement Instr.delim := rfl
theorem hsFrame : Statement Instr.hsFrame := rfl
theorem dataFrame (payload : Bytes) : Statement (Instr.dataFrame payload) := rfl
theorem emptySpan : Statement Instr.emptySpan := rfl
theorem dataSpanRx (message metadata : Bytes) : Statement (Instr.dataSpanRx message metadata) := rfl
theorem create (wait : Bool) (max : Nat) : Statement (Instr.create wait max) := rfl
theorem connect : Statement Instr.connect := rfl
theorem send (payload : Bytes) (consoleOnLine : Bool) : Statement (Instr.send payload consoleOnLine) := rfl
theorem close : Statement Instr.close := rfl
theorem destroy : Statement Instr.destroy := rfl
theorem dispatch (rx : Bytes) (txAvail : Nat) (txTaken : Option Nat) : Statement (Instr.dispatch rx txAvail txTaken) := by cases txTaken <;> rfl
theorem reservedCmd (x : BitVec 1) : Statement (Instr.reservedCmd x) := rfl
theorem findDelim : Statement Instr.findDelim := rfl
theorem extractOne (k : Nat) : Statement (Instr.extractOne k) := rfl
theorem extractFrames : Statement Instr.extractFrames := rfl
theorem classify (f : Bytes) : Statement (Instr.classify f) := rfl
theorem splitMeta (f : Bytes) : Statement (Instr.splitMeta f) := rfl
theorem decodeData (f : Bytes) : Statement (Instr.decodeData f) := rfl
theorem crc32 (s : Bytes) : Statement (Instr.crc32 s) := rfl
theorem hex8 (v : Word32) : Statement (Instr.hex8 v) := rfl
theorem hexParse8 (h : Bytes) : Statement (Instr.hexParse8 h) := rfl
theorem check (msg metadata : Bytes) : Statement (Instr.check msg metadata) := rfl
theorem encodeFrame (payload : Bytes) : Statement (Instr.encodeFrame payload) := rfl
theorem encodeHandshake : Statement Instr.encodeHandshake := rfl
theorem rxAppend (rx : Bytes) : Statement (Instr.rxAppend rx) := rfl
theorem rxFrame (f : Bytes) : Statement (Instr.rxFrame f) := rfl
theorem rxHandshake : Statement Instr.rxHandshake := rfl
theorem rxData (f : Bytes) : Statement (Instr.rxData f) := rfl
theorem postRx : Statement Instr.postRx := rfl
theorem txDrain (txAvail txTaken : Nat) : Statement (Instr.txDrain txAvail txTaken) := rfl
theorem evOpen : Statement Instr.evOpen := rfl
theorem evClosed : Statement Instr.evClosed := rfl
theorem evFrameReceived (msg : Bytes) : Statement (Instr.evFrameReceived msg) := rfl
theorem evFrameSent : Statement Instr.evFrameSent := rfl
theorem evConsoleSuspend : Statement Instr.evConsoleSuspend := rfl
theorem evConsoleResume : Statement Instr.evConsoleResume := rfl
theorem evSetDispatcherOn : Statement Instr.evSetDispatcherOn := rfl
theorem evSetDispatcherOff : Statement Instr.evSetDispatcherOff := rfl
theorem evRxEnable : Statement Instr.evRxEnable := rfl
theorem evRequestDispatch (fromInterrupt : Bool) : Statement (Instr.evRequestDispatch fromInterrupt) := rfl
theorem evWrite (bytes : Bytes) : Statement (Instr.evWrite bytes) := rfl
theorem evDiagWarnChecksum : Statement Instr.evDiagWarnChecksum := rfl
theorem evDiagErrorOversize : Statement Instr.evDiagErrorOversize := rfl
theorem errChecksumMismatch : Statement Instr.errChecksumMismatch := rfl
theorem errOversize : Statement Instr.errOversize := rfl
theorem errSendRejected : Statement Instr.errSendRejected := rfl
theorem errSetupFailure : Statement Instr.errSetupFailure := rfl

end Sys2Proof.Laws.EncodePort
end

