-- ==== Sys2Proof/Tests/Slice0.lean ====
section
/-! SUPPORT. The model's own tests, on small states. Every expected value comes from spec/: the vectors X, V, K, H, E, M and the
programs P of 95_test_vectors.md, the examples inside the rules, and the encodings of 30_encoding.md; each docstring names its
source. The last part holds, for every obligation with hypotheses, a state and operands that meet them. -/

namespace Sys2Proof.Tests

open Sys2Proof Sys2Proof.Machine

set_option Elab.async false

/-! ## Helpers -/

/-- `'"""\x04"""'` (R59). -/
def hs : Bytes := [0x22#8, 0x22#8, 0x22#8, 0x04#8, 0x22#8, 0x22#8, 0x22#8]

/-- `F1` of 95_test_vectors.md. -/
def f1 : Bytes := [0x22#8, 0x22#8, 0x22#8, 0x7B#8, 0x22#8, 0x69#8, 0x64#8, 0x22#8, 0x3A#8, 0x31#8, 0x7D#8, 0x34#8, 0x34#8, 0x35#8, 0x64#8, 0x66#8, 0x38#8, 0x63#8, 0x35#8, 0x22#8, 0x22#8, 0x22#8]

/-- The payload of `F1`. -/
def msg1 : Bytes := [0x7B#8, 0x22#8, 0x69#8, 0x64#8, 0x22#8, 0x3A#8, 0x31#8, 0x7D#8]

/-- A Channel with the flags `waiting connected sending sending_user_frame resume_uart armed` and the two buffers. -/
def chan (w c s u r a : Bool) (rx tx : Bytes) (wait : Bool := true) (max : Nat := 4096) (alive : Bool := true) : Channel :=
  { waitForStartFrame := wait, maxFrameSize := max, waitingForStartFrame := w, connected := c, sending := s,
    sendingUserFrame := u, resumeUart := r, rxBuf := rx, txBuf := tx, armed := a, alive := alive }

/-- A state with nothing presented and nothing emitted. -/
def st (c : Channel) : State := { chan := c, port := [], trace := [], result := .none, errors := [], draws := 0 }

/-- Connecting, with no start frame awaited: `0 0 0 0 0 1`. -/
def open0 (rx : Bytes) : State := st (chan false false false false false true rx [])

/-- Connected and idle: `0 1 0 0 0 1`. -/
def idle : State := st (chan false true false false false true [] [])

/-- Waiting for the start frame: `1 0 0 0 0 1`. -/
def waiting (rx : Bytes) : State := st (chan true false false false false true rx [])

/-- A user frame with console suspension in flight: `0 1 1 1 1 1`. -/
def busy (tx : Bytes) : State := st (chan false true true true true true [] tx)

/-- No Channel. -/
def gone : State := st (chan false false false false false false [] [] (alive := false))

def traceAfter (i : Instr) (s : State) : Option (List Event) := match exec i s with | .next t => some t.trace | _ => none
def resultAfter (i : Instr) (s : State) : Option OpResult := match exec i s with | .next t => some t.result | _ => none
def chanAfter (i : Instr) (s : State) : Option Channel := match exec i s with | .next t => some t.chan | _ => none
def rxAfter (i : Instr) (s : State) : Option Bytes := (chanAfter i s).map Channel.rxBuf
def txAfter (i : Instr) (s : State) : Option Bytes := (chanAfter i s).map Channel.txBuf
def refusal (i : Instr) (s : State) : Option Refusal := match exec i s with | .refused r => some r | _ => none
def reads (item : PortItem) (i : Instr) : Bool := match decode item with | .ok j => decide (i = j) | .error _ => false
def rejects (item : PortItem) (e : DecodeError) : Bool := match decode item with | .ok _ => false | .error e' => decide (e = e')

/-! ## WellFormed: each check refuses an ill-formed term -/

/-- R62: a data span is not empty. -/
theorem test_wf_dataSpanRx_empty : (Instr.dataSpanRx [] []).wellFormed = false := by decide +kernel

/-- R62, R57: a data span holds no `DELIM`, and does not end in a quote, which the closing delimiter would absorb (R85). -/
theorem test_wf_dataSpanRx_delimiter :
    (Instr.dataSpanRx [0x61#8, 0x22#8, 0x22#8, 0x22#8, 0x62#8, 0x7D#8] []).wellFormed = false ∧ (Instr.dataSpanRx [] [0x78#8, 0x22#8]).wellFormed = false := by decide +kernel

/-- R62, R91: a data span is not the handshake. -/
theorem test_wf_dataSpanRx_handshake : (Instr.dataSpanRx [] [0x04#8]).wellFormed = false := by decide +kernel

/-- R62, R64: a data span is cut behind its last brace. -/
theorem test_wf_dataSpanRx_cut :
    (Instr.dataSpanRx [0x7B#8] [0x7D#8, 0x31#8, 0x32#8]).wellFormed = false ∧ (Instr.dataSpanRx [0x7B#8, 0x7D#8] [0x31#8, 0x32#8]).wellFormed = true := by decide +kernel

/-! ## Decode: every constructor from a word written out from its encoding -/

/-- R58, R59: bit patterns, first byte first. -/
theorem test_decode_wire_fixed :
    reads (.wire [0b00100010#8, 0b00100010#8, 0b00100010#8]) .delim = true ∧
    reads (.wire [0b00100010#8, 0b00100010#8, 0b00100010#8, 0b00000100#8, 0b00100010#8, 0b00100010#8, 0b00100010#8]) .hsFrame =
      true ∧
    reads (.wire []) .emptySpan = true := by decide +kernel

/-- E1, E2: frames as transmitted; V21: a span with metadata past the eighth byte; bytes of no wire format are FEED of themselves (R67, R73). -/
theorem test_decode_wire_variable :
    reads (.wire [0x22#8, 0x22#8, 0x22#8, 0x30#8, 0x30#8, 0x30#8, 0x30#8, 0x30#8, 0x30#8, 0x30#8, 0x30#8, 0x22#8, 0x22#8, 0x22#8]) (.dataFrame []) = true ∧
    reads (.wire [0x22#8, 0x22#8, 0x22#8, 0x7B#8, 0x7D#8, 0x61#8, 0x33#8, 0x61#8, 0x36#8, 0x62#8, 0x66#8, 0x34#8, 0x33#8, 0x22#8, 0x22#8, 0x22#8]) (.dataFrame [0x7B#8, 0x7D#8]) = true ∧
    reads (.wire [0x7B#8, 0x7D#8, 0x61#8, 0x33#8, 0x61#8, 0x36#8, 0x62#8, 0x66#8, 0x34#8, 0x33#8, 0x2C#8, 0x65#8, 0x78#8, 0x74#8, 0x72#8, 0x61#8, 0x22#8, 0x22#8, 0x22#8]) (.dataSpanRx [0x7B#8, 0x7D#8] [0x61#8, 0x33#8, 0x61#8, 0x36#8, 0x62#8, 0x66#8, 0x34#8, 0x33#8, 0x2C#8, 0x65#8, 0x78#8, 0x74#8, 0x72#8, 0x61#8]) = true ∧
    reads (.wire [0x68#8, 0x65#8, 0x6C#8, 0x6C#8, 0x6F#8, 0x22#8, 0x22#8, 0x22#8]) (.dataSpanRx [] [0x68#8, 0x65#8, 0x6C#8, 0x6C#8, 0x6F#8]) = true ∧
    reads (.wire [0x22#8, 0x22#8, 0x22#8, 0x7B#8, 0x7D#8, 0x30#8, 0x30#8, 0x30#8, 0x30#8, 0x30#8, 0x30#8, 0x30#8, 0x30#8, 0x22#8, 0x22#8, 0x22#8]) (feed [0x22#8, 0x22#8, 0x22#8, 0x7B#8, 0x7D#8, 0x30#8, 0x30#8, 0x30#8, 0x30#8, 0x30#8, 0x30#8, 0x30#8, 0x30#8, 0x22#8, 0x22#8, 0x22#8]) = true ∧ reads (.wire [0x61#8, 0x62#8, 0x22#8, 0x22#8]) (feed [0x61#8, 0x62#8, 0x22#8, 0x22#8]) = true := by
  decide +kernel

/-- R69: `cmd[2:0]` and the operands of each row; P1 steps 1 to 4 and P2 step 8. -/
theorem test_decode_commands :
    reads (.cmd 0b000#3 [.flag true, .num 4096]) (.create true 4096) = true ∧
    reads (.cmd 0b001#3 []) .connect = true ∧
    reads (.cmd 0b010#3 [.bytes msg1, .flag true]) (.send msg1 true) = true ∧
    reads (.cmd 0b011#3 []) .close = true ∧
    reads (.cmd 0b100#3 []) .destroy = true ∧
    reads (.cmd 0b101#3 [.bytes [], .num 64, .num 7]) (.dispatch [] 64 (some 7)) = true ∧
    reads (.cmd 0b101#3 [.bytes hs, .num 0]) (.dispatch hs 0 none) = true ∧
    reads (.cmd 0b110#3 []) (.reservedCmd 0#1) = true ∧
    reads (.cmd 0b111#3 []) (.reservedCmd 1#1) = true ∧
    rejects (.cmd 0b001#3 [.flag true]) .wrongOperands = true := by decide +kernel

/-- R74: the internal operations are named, they have no code. -/
theorem test_decode_internal :
    reads (.internal .findDelim []) .findDelim = true ∧
    reads (.internal .extractOne [.num 1]) (.extractOne 1) = true ∧
    reads (.internal .extractFrames []) .extractFrames = true ∧
    reads (.internal .classify [.bytes [0x04#8]]) (.classify [0x04#8]) = true ∧
    reads (.internal .splitMeta [.bytes msg1]) (.splitMeta msg1) = true ∧
    reads (.internal .decodeData [.bytes msg1]) (.decodeData msg1) = true ∧
    reads (.internal .crc32 [.bytes []]) (.crc32 []) = true ∧
    reads (.internal .hex8 [.word 0xDEADBEEF#32]) (.hex8 0xDEADBEEF#32) = true ∧
    reads (.internal .hexParse8 [.bytes [0x34#8, 0x34#8, 0x35#8, 0x64#8, 0x66#8, 0x38#8, 0x63#8, 0x35#8]]) (.hexParse8 [0x34#8, 0x34#8, 0x35#8, 0x64#8, 0x66#8, 0x38#8, 0x63#8, 0x35#8]) = true ∧
    reads (.internal .check [.bytes msg1, .bytes [0x61#8, 0x62#8, 0x63#8]]) (.check msg1 [0x61#8, 0x62#8, 0x63#8]) = true := by decide +kernel

/-- R74, second half. -/
theorem test_decode_internal_channel :
    reads (.internal .encodeFrame [.bytes msg1]) (.encodeFrame msg1) = true ∧
    reads (.internal .encodeHandshake []) .encodeHandshake = true ∧
    reads (.internal .rxAppend [.bytes [0x78#8]]) (.rxAppend [0x78#8]) = true ∧
    reads (.internal .rxFrame [.bytes [0x78#8]]) (.rxFrame [0x78#8]) = true ∧
    reads (.internal .rxHandshake []) .rxHandshake = true ∧
    reads (.internal .rxData [.bytes [0x78#8]]) (.rxData [0x78#8]) = true ∧
    reads (.internal .postRx []) .postRx = true ∧
    reads (.internal .txDrain [.num 16, .num 5]) (.txDrain 16 5) = true ∧
    reads (.internal .hexParse8 [.bytes [0x30#8, 0x31#8, 0x32#8, 0x33#8, 0x34#8, 0x35#8, 0x36#8]]) (.hexParse8 [0x30#8, 0x31#8, 0x32#8, 0x33#8, 0x34#8, 0x35#8, 0x36#8]) = true ∧
    rejects (.internal .postRx [.num 0]) .wrongOperands = true := by decide +kernel

/-- R70: `ev[3:0]`, and the reserved codes. -/
theorem test_decode_events :
    reads (.event 0b0000#4 []) .evOpen = true ∧ reads (.event 0b0001#4 []) .evClosed = true ∧
    reads (.event 0b0010#4 [.bytes msg1]) (.evFrameReceived msg1) = true ∧ reads (.event 0b0011#4 []) .evFrameSent = true ∧
    reads (.event 0b0100#4 []) .evConsoleSuspend = true ∧ reads (.event 0b0101#4 []) .evConsoleResume = true ∧
    reads (.event 0b0110#4 []) .evSetDispatcherOn = true ∧ reads (.event 0b0111#4 []) .evSetDispatcherOff = true ∧
    reads (.event 0b1000#4 []) .evRxEnable = true ∧ reads (.event 0b1001#4 [.flag false]) (.evRequestDispatch false) = true ∧
    reads (.event 0b1010#4 [.bytes hs]) (.evWrite hs) = true ∧ reads (.event 0b1011#4 []) .evDiagWarnChecksum = true ∧
    reads (.event 0b1100#4 []) .evDiagErrorOversize = true ∧ rejects (.event 0b1101#4 []) .reservedEventCode = true ∧
    rejects (.event 0b1111#4 []) .reservedEventCode = true := by decide +kernel

/-- R71: `err[2:0]`, with 000 no error and 101 to 111 reserved. -/
theorem test_decode_errors :
    reads (.error 0b001#3) .errChecksumMismatch = true ∧ reads (.error 0b010#3) .errOversize = true ∧
    reads (.error 0b011#3) .errSendRejected = true ∧ reads (.error 0b100#3) .errSetupFailure = true ∧
    rejects (.error 0b000#3) .noError = true ∧ rejects (.error 0b101#3) .reservedErrorCode = true := by decide +kernel

/-- The words of spec/opcode_table.json, in whole bytes (log entry 15). -/
theorem test_table_words :
    decodeTableWord 24 0x222222 = some .delim ∧ decodeTableWord 56 0x22222204222222 = some .hsFrame ∧
    decodeTableWord 8 1 = some .connect ∧ decodeTableWord 8 3 = some .close ∧
    decodeTableWord 8 6 = some (.reservedCmd 0#1) ∧ decodeTableWord 8 12 = some .evDiagErrorOversize ∧
    decodeTableWord 0 0 = some .emptySpan := by decide +kernel

/-- R131 as the first operation after reset (M1): the table word of CONNECT is presented and run. -/
theorem test_first_step_connects :
    (match step (State.reset.withFetchWord 8 1) with | .next t => t.trace | _ => []) = [.setDispatcherOn, .rxEnable] := by
  decide +kernel

/-- R173: with nothing presented the state is held. -/
theorem test_step_idle :
    (match step idle with | .next t => decide (t = idle) | _ => false) = true := by decide +kernel

/-! ## Wire formats -/

/-- R84's example: the delimiter closes the span `'{}'`. -/
theorem test_delim_closes_the_span :
    traceAfter .delim (open0 [0x7B#8, 0x7D#8]) = some [.frameReceived [0x7B#8, 0x7D#8]] ∧ rxAfter .delim (open0 [0x7B#8, 0x7D#8]) = some [] := by
  decide +kernel

/-- M3. -/
theorem test_hsFrame_opens :
    traceAfter .hsFrame (waiting []) = some [.opened] ∧
    chanAfter .hsFrame (waiting []) = some (chan false true true false false true [] hs) := by decide +kernel

/-- M8. -/
theorem test_dataFrame_is_received : traceAfter (.dataFrame msg1) (open0 []) = some [.frameReceived msg1] := by decide +kernel

/-- R83, X13: an empty span is skipped with its delimiter. -/
theorem test_emptySpan_is_skipped :
    rxAfter .emptySpan (open0 [0x22#8, 0x22#8, 0x22#8, 0x78#8]) = some [0x78#8] ∧ traceAfter .emptySpan (open0 [0x22#8, 0x22#8, 0x22#8, 0x78#8]) = some [] ∧
    rxAfter .emptySpan (open0 [0x78#8, 0x22#8, 0x22#8, 0x22#8]) = some [0x78#8, 0x22#8, 0x22#8, 0x22#8] := by decide +kernel

/-- V21 and V4. -/
theorem test_dataSpanRx :
    traceAfter (.dataSpanRx [0x7B#8, 0x7D#8] [0x61#8, 0x33#8, 0x61#8, 0x36#8, 0x62#8, 0x66#8, 0x34#8, 0x33#8, 0x2C#8, 0x65#8, 0x78#8, 0x74#8, 0x72#8, 0x61#8]) (open0 []) = some [.frameReceived [0x7B#8, 0x7D#8]] ∧
    traceAfter (.dataSpanRx msg1 [0x30#8, 0x30#8, 0x30#8, 0x30#8, 0x30#8, 0x30#8, 0x30#8, 0x30#8]) (open0 []) = some [.diagWarnChecksum] := by decide +kernel

/-! ## Commands -/

/-- R176's example, and R186: no second CREATE. -/
theorem test_create :
    chanAfter (.create true 4096) gone = some (chan false false false false false false [] []) ∧
    traceAfter (.create true 4096) gone = some [] ∧ refusal (.create true 4096) idle = some .channelAlive := by decide +kernel

/-- M1 and M2: `waiting_for_start_frame` takes the configured value; P5 step 14: nothing when connected. -/
theorem test_connect :
    chanAfter .connect (st (chan false false false false false false [] [])) =
      some (chan true false false false false true [] []) ∧
    chanAfter .connect (st (chan false false false false false false [] [] (wait := false))) =
      some (chan false false false false false true [] [] (wait := false)) ∧
    traceAfter .connect idle = some [] := by decide +kernel

/-- M14 and M15. -/
theorem test_send_accepted :
    traceAfter (.send msg1 true) idle = some [.consoleSuspend, .requestDispatch false] ∧
    chanAfter (.send msg1 true) idle = some (chan false true true true true true [] f1) ∧
    chanAfter (.send msg1 false) idle = some (chan false true true true false true [] f1) := by decide +kernel

/-- M16 and M17: a rejected SEND. -/
theorem test_send_rejected :
    resultAfter (.send [0x7B#8, 0x7D#8] false) (busy f1) = some (.accepted false) ∧ txAfter (.send [0x7B#8, 0x7D#8] false) (busy f1) = some f1 ∧
    resultAfter (.send [0x7B#8, 0x7D#8] false) (waiting []) = some (.accepted false) ∧
    traceAfter (.send [0x7B#8, 0x7D#8] true) (waiting []) = some [] := by decide +kernel

/-- P5 steps 9 and 10. -/
theorem test_close :
    traceAfter .close (busy [0x7D#8, 0x34#8, 0x34#8, 0x35#8, 0x64#8, 0x66#8, 0x38#8, 0x63#8, 0x35#8, 0x22#8, 0x22#8, 0x22#8]) = some [.setDispatcherOff, .consoleResume, .closed] ∧
    chanAfter .close (busy [0x7D#8, 0x34#8, 0x34#8, 0x35#8, 0x64#8, 0x66#8, 0x38#8, 0x63#8, 0x35#8, 0x22#8, 0x22#8, 0x22#8]) = some (chan false false false false false false [] [0x7D#8, 0x34#8, 0x34#8, 0x35#8, 0x64#8, 0x66#8, 0x38#8, 0x63#8, 0x35#8, 0x22#8, 0x22#8, 0x22#8]) ∧
    traceAfter .close (st (chan false false false false false false [] [])) = some [.setDispatcherOff, .closed] := by
  decide +kernel

/-- R134, R186. -/
theorem test_destroy :
    chanAfter .destroy (st (chan false false false false false false [0x78#8] [0x79#8])) = some gone.chan ∧
    refusal .destroy idle = some .stillArmed ∧ refusal .connect gone = some .channelNotAlive := by decide +kernel

/-- P1 step 3: the scenario of the source. -/
theorem test_dispatch_scenario :
    traceAfter (.dispatch [0x22#8, 0x22#8, 0x22#8, 0x04#8, 0x22#8, 0x22#8, 0x22#8, 0x22#8, 0x22#8, 0x22#8, 0x7B#8, 0x22#8, 0x69#8, 0x64#8, 0x22#8, 0x3A#8, 0x31#8, 0x7D#8, 0x30#8, 0x30#8, 0x30#8, 0x30#8, 0x30#8, 0x30#8, 0x30#8, 0x30#8, 0x22#8, 0x22#8, 0x22#8] 0 (some 0)) (waiting []) = some [.opened, .diagWarnChecksum] ∧
    txAfter (.dispatch [0x22#8, 0x22#8, 0x22#8, 0x04#8, 0x22#8, 0x22#8, 0x22#8, 0x22#8, 0x22#8, 0x22#8, 0x7B#8, 0x22#8, 0x69#8, 0x64#8, 0x22#8, 0x3A#8, 0x31#8, 0x7D#8, 0x30#8, 0x30#8, 0x30#8, 0x30#8, 0x30#8, 0x30#8, 0x30#8, 0x30#8, 0x22#8, 0x22#8, 0x22#8] 0 (some 0)) (waiting []) = some hs := by decide +kernel

/-- P2 steps 11 and 12: a partial write, then the completion; and R186. -/
theorem test_dispatch_drains :
    txAfter (.dispatch [] 64 (some 20)) (busy [0x6C#8, 0x74#8, 0x22#8, 0x3A#8, 0x7B#8, 0x22#8, 0x6F#8, 0x6B#8, 0x22#8, 0x3A#8, 0x74#8, 0x72#8, 0x75#8, 0x65#8, 0x7D#8, 0x7D#8, 0x37#8, 0x62#8, 0x31#8, 0x65#8, 0x37#8, 0x32#8, 0x61#8, 0x31#8, 0x22#8, 0x22#8, 0x22#8]) = some [0x37#8, 0x32#8, 0x61#8, 0x31#8, 0x22#8, 0x22#8, 0x22#8] ∧
    traceAfter (.dispatch [] 64 none) (busy [0x37#8, 0x32#8, 0x61#8, 0x31#8, 0x22#8, 0x22#8, 0x22#8]) =
      some [.write [0x37#8, 0x32#8, 0x61#8, 0x31#8, 0x22#8, 0x22#8, 0x22#8], .consoleResume, .frameSent] ∧
    refusal (.dispatch [] 4 (some 5)) (busy [0x37#8, 0x32#8, 0x61#8, 0x31#8, 0x22#8, 0x22#8, 0x22#8]) = some .tookMoreThanOffered := by decide +kernel

/-- R69, R186: the codes 110 and 111, always. -/
theorem test_reservedCmd :
    refusal (.reservedCmd 0#1) idle = some .reservedCommand ∧ refusal (.reservedCmd 1#1) gone = some .reservedCommand := by
  decide +kernel

/-! ## Detector, decoder, checksum, encoder -/

/-- X3, X5, X8, X10. -/
theorem test_findDelim :
    resultAfter .findDelim (open0 [0x22#8, 0x22#8]) = some (.offset none) ∧ resultAfter .findDelim (open0 [0x61#8, 0x62#8, 0x22#8, 0x22#8, 0x22#8, 0x63#8]) = some (.offset (some 2)) ∧
    resultAfter .findDelim (open0 [0x61#8, 0x22#8, 0x22#8, 0x22#8, 0x22#8, 0x62#8]) = some (.offset (some 1)) ∧
    resultAfter .findDelim (open0 [0x22#8, 0x78#8, 0x22#8, 0x22#8, 0x22#8]) = some (.offset (some 2)) := by decide +kernel

/-- R82's example. -/
theorem test_extractOne :
    rxAfter (.extractOne 1) (waiting [0x04#8, 0x22#8, 0x22#8, 0x22#8, 0x78#8]) = some [0x78#8] ∧ traceAfter (.extractOne 1) (waiting [0x04#8, 0x22#8, 0x22#8, 0x22#8, 0x78#8]) = some [.opened] := by
  decide +kernel

/-- R82's pseudocode at offsets that FIND_DELIM does not give, one of them past the end of `rx_buf` (log entry 6). -/
theorem test_extractOne_elsewhere :
    rxAfter (.extractOne 0) (waiting [0x04#8, 0x22#8, 0x22#8, 0x22#8, 0x78#8]) = some [0x22#8, 0x78#8] ∧
    traceAfter (.extractOne 2) (open0 [0x7B#8, 0x7D#8, 0x61#8, 0x62#8]) = some [.frameReceived [0x7B#8, 0x7D#8]] ∧ rxAfter (.extractOne 5) (waiting [0x61#8, 0x62#8]) = some [] ∧
    (match exec (.extractOne 5) (waiting [0x61#8, 0x62#8]) with | .next t => t.draws | _ => 0) = 3 := by decide +kernel

/-- X17 and X22. -/
theorem test_extractFrames :
    traceAfter .extractFrames (open0 [0x22#8, 0x22#8, 0x22#8, 0x04#8, 0x22#8, 0x22#8, 0x22#8, 0x22#8, 0x22#8, 0x22#8, 0x7B#8, 0x7D#8, 0x22#8, 0x22#8, 0x22#8, 0x7A#8]) = some [.opened, .frameReceived [0x7B#8, 0x7D#8]] ∧
    rxAfter .extractFrames (open0 [0x22#8, 0x22#8, 0x22#8, 0x04#8, 0x22#8, 0x22#8, 0x22#8, 0x22#8, 0x22#8, 0x22#8, 0x7B#8, 0x7D#8, 0x22#8, 0x22#8, 0x22#8, 0x7A#8]) = some [0x7A#8] ∧
    rxAfter .extractFrames (open0 [0x22#8, 0x22#8, 0x22#8, 0x22#8, 0x22#8, 0x22#8, 0x22#8]) = some [0x22#8] := by decide +kernel

/-- V26; and R90's pseudocode on no byte at all. -/
theorem test_classify :
    resultAfter (.classify [0x04#8]) idle = some (.spanClass .handshake) ∧
    resultAfter (.classify [0x04#8, 0x04#8]) idle = some (.spanClass .data) ∧
    resultAfter (.classify [0x34#8]) idle = some (.spanClass .data) ∧
    resultAfter (.classify []) idle = some (.spanClass .data) := by decide +kernel

/-- V9, V13, V21. -/
theorem test_splitMeta :
    resultAfter (.splitMeta [0x7B#8, 0x22#8, 0x69#8, 0x64#8, 0x22#8, 0x3A#8, 0x31#8, 0x7D#8, 0x34#8, 0x34#8, 0x35#8, 0x64#8, 0x66#8, 0x38#8, 0x63#8, 0x35#8, 0x7D#8]) idle = some (.splitPoint 17) ∧
    resultAfter (.splitMeta [0x68#8, 0x65#8, 0x6C#8, 0x6C#8, 0x6F#8]) idle = some (.splitPoint 0) ∧
    resultAfter (.splitMeta [0x7B#8, 0x7D#8, 0x61#8, 0x33#8, 0x61#8, 0x36#8, 0x62#8, 0x66#8, 0x34#8, 0x33#8, 0x2C#8, 0x65#8, 0x78#8, 0x74#8, 0x72#8, 0x61#8]) idle = some (.splitPoint 2) := by decide +kernel

/-- V3 and V4: either case of digits, and a mismatch. -/
theorem test_decodeData_checked :
    resultAfter (.decodeData [0x7B#8, 0x22#8, 0x69#8, 0x64#8, 0x22#8, 0x3A#8, 0x31#8, 0x7D#8, 0x34#8, 0x34#8, 0x35#8, 0x64#8, 0x46#8, 0x38#8, 0x63#8, 0x35#8]) idle = some (.decoded (.deliver msg1)) ∧
    resultAfter (.decodeData [0x7B#8, 0x22#8, 0x69#8, 0x64#8, 0x22#8, 0x3A#8, 0x31#8, 0x7D#8, 0x30#8, 0x30#8, 0x30#8, 0x30#8, 0x30#8, 0x30#8, 0x30#8, 0x30#8]) idle = some (.decoded .dropBadChecksum) := by decide +kernel

/-- V7, V11, V15: seven bytes of metadata, unparsable metadata, no message; and V11 under the policy that was not decided. -/
theorem test_decodeData_unchecked :
    resultAfter (.decodeData [0x7B#8, 0x22#8, 0x69#8, 0x64#8, 0x22#8, 0x3A#8, 0x31#8, 0x7D#8, 0x34#8, 0x34#8, 0x35#8, 0x64#8, 0x66#8, 0x38#8, 0x63#8]) idle = some (.decoded (.deliver msg1)) ∧
    resultAfter (.decodeData [0x7B#8, 0x22#8, 0x69#8, 0x64#8, 0x22#8, 0x3A#8, 0x31#8, 0x7D#8, 0x34#8, 0x34#8, 0x35#8, 0x64#8, 0x66#8, 0x38#8, 0x63#8, 0x67#8]) idle = some (.decoded (.deliver msg1)) ∧
    resultAfter (.decodeData [0x30#8, 0x30#8, 0x30#8, 0x30#8, 0x30#8, 0x30#8, 0x30#8, 0x30#8]) idle = some (.decoded .dropSilent) ∧
    decodeDataWith .drop [0x7B#8, 0x22#8, 0x69#8, 0x64#8, 0x22#8, 0x3A#8, 0x31#8, 0x7D#8, 0x34#8, 0x34#8, 0x35#8, 0x64#8, 0x66#8, 0x38#8, 0x63#8, 0x67#8] = .dropBadChecksum := by decide +kernel

/-- K1, K2, K4, K9. -/
theorem test_crc32 :
    resultAfter (.crc32 []) idle = some (.word 0x00000000#32) ∧ resultAfter (.crc32 [0x00#8]) idle = some (.word 0xD202EF8D#32) ∧
    resultAfter (.crc32 [0xFF#8]) idle = some (.word 0xFF000000#32) ∧
    resultAfter (.crc32 [0x31#8, 0x32#8, 0x33#8, 0x34#8, 0x35#8, 0x36#8, 0x37#8, 0x38#8, 0x39#8]) idle = some (.word 0xCBF43926#32) := by decide +kernel

/-- K9 for the two other forms of the checksum that Safety.lean states. -/
theorem test_crc32_other_forms :
    crc32Reflected [0x31#8, 0x32#8, 0x33#8, 0x34#8, 0x35#8, 0x36#8, 0x37#8, 0x38#8, 0x39#8] = 0xCBF43926#32 ∧ crc32TableDriven [0x31#8, 0x32#8, 0x33#8, 0x34#8, 0x35#8, 0x36#8, 0x37#8, 0x38#8, 0x39#8] = 0xCBF43926#32 := by decide +kernel

/-- The corner cases of HEX8 in section 2.3. -/
theorem test_hex8 :
    resultAfter (.hex8 0x0000000A#32) idle = some (.bytes [0x30#8, 0x30#8, 0x30#8, 0x30#8, 0x30#8, 0x30#8, 0x30#8, 0x61#8]) ∧
    resultAfter (.hex8 0xDEADBEEF#32) idle = some (.bytes [0x64#8, 0x65#8, 0x61#8, 0x64#8, 0x62#8, 0x65#8, 0x65#8, 0x66#8]) := by decide +kernel

/-- H5, H7. -/
theorem test_hexParse8 :
    resultAfter (.hexParse8 [0x44#8, 0x65#8, 0x61#8, 0x64#8, 0x42#8, 0x65#8, 0x65#8, 0x46#8]) idle = some (.parsed (some 0xDEADBEEF#32)) ∧
    resultAfter (.hexParse8 [0x61#8, 0x62#8, 0x63#8, 0x64#8, 0x65#8, 0x66#8, 0x41#8, 0x42#8]) idle = some (.parsed (some 0xABCDEFAB#32)) := by decide +kernel

/-- H8, H12, H13: the bytes next to the digits; nine bytes, of which eight are read, and two, one of which is no digit. -/
theorem test_hexParse8_rejects :
    resultAfter (.hexParse8 [0x30#8, 0x30#8, 0x30#8, 0x30#8, 0x30#8, 0x30#8, 0x30#8, 0x67#8]) idle = some (.parsed none) ∧ resultAfter (.hexParse8 [0x2F#8, 0x30#8, 0x31#8, 0x32#8, 0x33#8, 0x34#8, 0x35#8, 0x36#8]) idle = some (.parsed none) ∧
    resultAfter (.hexParse8 [0x3A#8, 0x30#8, 0x31#8, 0x32#8, 0x33#8, 0x34#8, 0x35#8, 0x36#8]) idle = some (.parsed none) ∧ resultAfter (.hexParse8 [0x40#8, 0x41#8, 0x42#8, 0x43#8, 0x44#8, 0x45#8, 0x46#8, 0x30#8]) idle = some (.parsed none) ∧
    resultAfter (.hexParse8 [0x60#8, 0x61#8, 0x62#8, 0x63#8, 0x64#8, 0x65#8, 0x66#8, 0x30#8]) idle = some (.parsed none) ∧
    resultAfter (.hexParse8 [0x30#8, 0x30#8, 0x30#8, 0x30#8, 0x30#8, 0x30#8, 0x31#8, 0x30#8, 0x67#8]) idle = some (.parsed (some 0x00000010#32)) ∧
    resultAfter (.hexParse8 [0x31#8, 0x67#8]) idle = some (.parsed none) := by decide +kernel

/-- The examples of CHECK in section 2.3. -/
theorem test_check :
    resultAfter (.check msg1 [0x34#8, 0x34#8, 0x35#8, 0x64#8, 0x66#8, 0x38#8, 0x63#8, 0x35#8]) idle = some (.verdict .matches) ∧
    resultAfter (.check msg1 [0x30#8, 0x30#8, 0x30#8, 0x30#8, 0x30#8, 0x30#8, 0x30#8, 0x30#8]) idle = some (.verdict .mismatch) ∧
    resultAfter (.check msg1 [0x6E#8, 0x6F#8, 0x74#8, 0x68#8, 0x65#8, 0x78#8, 0x78#8, 0x78#8]) idle = some (.verdict .unparsable) ∧
    resultAfter (.check msg1 [0x61#8, 0x62#8, 0x63#8]) idle = some (.verdict .absent) := by decide +kernel

/-- E1, E3. -/
theorem test_encodeFrame :
    resultAfter (.encodeFrame []) idle = some (.bytes [0x22#8, 0x22#8, 0x22#8, 0x30#8, 0x30#8, 0x30#8, 0x30#8, 0x30#8, 0x30#8, 0x30#8, 0x30#8, 0x22#8, 0x22#8, 0x22#8]) ∧
    resultAfter (.encodeFrame msg1) idle = some (.bytes f1) := by decide +kernel

/-- R117. -/
theorem test_encodeHandshake : resultAfter .encodeHandshake idle = some (.bytes hs) := by decide +kernel

/-! ## Phases of DISPATCH -/

/-- R123's example: appended, not yet extracted. -/
theorem test_rxAppend : rxAfter (.rxAppend [0x22#8, 0x78#8]) (open0 [0x22#8, 0x22#8]) = some [0x22#8, 0x22#8, 0x22#8, 0x78#8] := by decide +kernel

/-- R124: a data span is dropped while waiting and decoded otherwise; a handshake is acted on in both cases. -/
theorem test_rxFrame :
    traceAfter (.rxFrame [0x7B#8, 0x22#8, 0x69#8, 0x64#8, 0x22#8, 0x3A#8, 0x31#8, 0x7D#8, 0x30#8, 0x30#8, 0x30#8, 0x30#8, 0x30#8, 0x30#8, 0x30#8, 0x30#8]) (waiting []) = some [] ∧
    traceAfter (.rxFrame [0x7B#8, 0x22#8, 0x69#8, 0x64#8, 0x22#8, 0x3A#8, 0x31#8, 0x7D#8, 0x30#8, 0x30#8, 0x30#8, 0x30#8, 0x30#8, 0x30#8, 0x30#8, 0x30#8]) (open0 []) = some [.diagWarnChecksum] ∧
    traceAfter (.rxFrame [0x04#8]) (waiting []) = some [.opened] := by decide +kernel

/-- M3 and M4: the first handshake opens and queues a reply; one more while it is in flight queues none. -/
theorem test_rxHandshake :
    chanAfter .rxHandshake (waiting []) = some (chan false true true false false true [] hs) ∧
    chanAfter .rxHandshake (st (chan false true true false false true [] hs)) =
      some (chan false true true false false true [] hs) ∧
    traceAfter .rxHandshake idle = some [] ∧ txAfter .rxHandshake idle = some hs := by decide +kernel

/-- R125's example, and V4. -/
theorem test_rxData :
    traceAfter (.rxData [0x7B#8, 0x22#8, 0x69#8, 0x64#8, 0x22#8, 0x3A#8, 0x31#8, 0x7D#8, 0x34#8, 0x34#8, 0x35#8, 0x64#8, 0x66#8, 0x38#8, 0x63#8, 0x35#8]) (open0 []) = some [.frameReceived msg1] ∧
    traceAfter (.rxData [0x7B#8, 0x22#8, 0x69#8, 0x64#8, 0x22#8, 0x3A#8, 0x31#8, 0x7D#8, 0x30#8, 0x30#8, 0x30#8, 0x30#8, 0x30#8, 0x30#8, 0x30#8, 0x30#8]) (open0 []) = some [.diagWarnChecksum] := by decide +kernel

/-- R126's example: 14 bytes are kept and 15 dropped with `max = 8`; the drop comes before the trim. -/
theorem test_postRx_oversize :
    rxAfter .postRx (st (chan false false false false false true (List.replicate 14 0x61#8) [] (max := 8))) =
      some (List.replicate 14 0x61#8) ∧
    rxAfter .postRx (st (chan true false false false false true (List.replicate 15 0x61#8) [] (max := 8))) = some [] ∧
    traceAfter .postRx (st (chan true false false false false true (List.replicate 15 0x61#8) [] (max := 8))) =
      some [.diagErrorOversize] := by decide +kernel

/-- M10 and M11. -/
theorem test_postRx_trim :
    rxAfter .postRx (waiting [0x61#8, 0x62#8, 0x63#8]) = some [0x61#8, 0x62#8, 0x63#8] ∧ rxAfter .postRx (waiting [0x61#8, 0x62#8, 0x63#8, 0x64#8]) = some [0x62#8, 0x63#8, 0x64#8] ∧
    rxAfter .postRx (open0 [0x61#8, 0x62#8, 0x63#8, 0x64#8]) = some [0x61#8, 0x62#8, 0x63#8, 0x64#8] := by decide +kernel

/-- R127's example. -/
theorem test_txDrain :
    traceAfter (.txDrain 16 16) (busy f1) = some [.write (f1.take 16)] ∧
    chanAfter (.txDrain 16 6) (busy (f1.drop 16)) = some (chan false true false false false true [] []) ∧
    txAfter (.txDrain 16 0) (busy f1) = some f1 ∧ traceAfter (.txDrain 16 0) (busy f1) = some [] := by decide +kernel

/-! ## Events, error kinds, script -/

/-- R8 `emit`, R10, for all thirteen events. -/
theorem test_events :
    ([.evOpen, .evClosed, .evFrameReceived [0x7B#8, 0x7D#8], .evFrameSent, .evConsoleSuspend, .evConsoleResume, .evSetDispatcherOn,
      .evSetDispatcherOff, .evRxEnable, .evRequestDispatch false, .evWrite hs, .evDiagWarnChecksum,
      .evDiagErrorOversize] : List Instr).map (traceAfter · idle) =
    [some [.opened], some [.closed], some [.frameReceived [0x7B#8, 0x7D#8]], some [.frameSent], some [.consoleSuspend],
      some [.consoleResume], some [.setDispatcherOn], some [.setDispatcherOff], some [.rxEnable],
      some [.requestDispatch false], some [.write hs], some [.diagWarnChecksum], some [.diagErrorOversize]] := by decide +kernel

/-- D28: a WRITE of no bytes is not emitted; R8 `emit`: the argument is the one presented. -/
theorem test_events_edges :
    traceAfter (.evWrite []) idle = some [] ∧ traceAfter (.evFrameReceived []) idle = some [.frameReceived []] ∧
    traceAfter (.evRequestDispatch true) idle = some [.requestDispatch true] := by decide +kernel

/-- R151 to R154. -/
theorem test_errors :
    traceAfter .errChecksumMismatch (open0 [0x78#8]) = some [.diagWarnChecksum] ∧
    rxAfter .errOversize (open0 [0x78#8]) = some [] ∧ traceAfter .errOversize (open0 [0x78#8]) = some [.diagErrorOversize] ∧
    resultAfter .errSendRejected idle = some (.accepted false) ∧ traceAfter .errSetupFailure gone = some [] ∧
    chanAfter .errSetupFailure gone = some gone.chan ∧ refusal .errSetupFailure idle = some .setupIsOver := by decide +kernel

/-- R72: lines of a script. -/
theorem test_script_lines :
    readLine [0x44#8, 0x49#8, 0x53#8, 0x50#8, 0x41#8, 0x54#8, 0x43#8, 0x48#8, 0x20#8, 0x72#8, 0x78#8, 0x3D#8, 0x27#8, 0x22#8, 0x22#8, 0x22#8, 0x5C#8, 0x78#8, 0x30#8, 0x34#8, 0x22#8, 0x22#8, 0x22#8, 0x27#8, 0x20#8, 0x61#8, 0x76#8, 0x61#8, 0x69#8, 0x6C#8, 0x3D#8, 0x36#8, 0x34#8] = some (.dispatch hs 64 none) ∧
    readLine [0x53#8, 0x45#8, 0x4E#8, 0x44#8, 0x20#8, 0x20#8, 0x20#8, 0x20#8, 0x20#8, 0x27#8, 0x7B#8, 0x22#8, 0x69#8, 0x64#8, 0x22#8, 0x3A#8, 0x31#8, 0x7D#8, 0x27#8, 0x20#8, 0x63#8, 0x6F#8, 0x6E#8, 0x73#8, 0x6F#8, 0x6C#8, 0x65#8, 0x3D#8, 0x31#8] = some (.send msg1 true) ∧
    readLine [0x43#8, 0x52#8, 0x45#8, 0x41#8, 0x54#8, 0x45#8, 0x20#8, 0x20#8, 0x20#8, 0x77#8, 0x61#8, 0x69#8, 0x74#8, 0x3D#8, 0x31#8, 0x20#8, 0x6D#8, 0x61#8, 0x78#8, 0x3D#8, 0x34#8, 0x30#8, 0x39#8, 0x36#8] = some (.create true 4096) ∧ readLine [0x43#8, 0x4F#8, 0x4E#8, 0x4E#8, 0x45#8, 0x43#8, 0x54#8] = some .connect ∧
    readLine [0x44#8, 0x49#8, 0x53#8, 0x50#8, 0x41#8, 0x54#8, 0x43#8, 0x48#8, 0x20#8, 0x72#8, 0x78#8, 0x3D#8, 0x27#8, 0x27#8, 0x20#8, 0x61#8, 0x76#8, 0x61#8, 0x69#8, 0x6C#8, 0x3D#8, 0x36#8, 0x34#8, 0x20#8, 0x74#8, 0x61#8, 0x6B#8, 0x65#8, 0x6E#8, 0x3D#8, 0x32#8, 0x30#8] = some (.dispatch [] 64 (some 20)) ∧ readLine [0x43#8, 0x4C#8, 0x4F#8, 0x53#8, 0x45#8, 0x44#8] = none := by
  decide +kernel

/-! ## A state and operands that meet the hypotheses of each obligation -/

/-- Two small Channels keep the invariants. -/
theorem idle_inv : ChannelInv idle.chan := by constructor <;> decide +kernel
theorem busy_inv : ChannelInv (busy hs).chan := by constructor <;> decide +kernel
theorem waiting_inv : ChannelInv (waiting []).chan := by constructor <;> decide +kernel
theorem gone_inv : ChannelInv gone.chan := by constructor <;> decide +kernel
theorem closed_inv : ChannelInv (st (chan false false false false false false [] [])).chan := by constructor <;> decide +kernel
theorem reply_inv : ChannelInv (st (chan false true true false false true [] hs)).chan := by constructor <;> decide +kernel

theorem test_witness_DecodeOfEncode :
    (Instr.dataSpanRx [0x7B#8, 0x7D#8] [0x31#8, 0x32#8]).wellFormed = true ∧ (Instr.reservedCmd 1#1).wellFormed = true ∧
    (Instr.dispatch hs 64 (some 7)).wellFormed = true := by decide +kernel

theorem test_witness_EncodeOfDecode :
    (∃ i, decode (.wire [0x22#8, 0x22#8, 0x22#8, 0x7B#8, 0x7D#8, 0x61#8, 0x33#8, 0x61#8, 0x36#8, 0x62#8, 0x66#8, 0x34#8, 0x33#8, 0x22#8, 0x22#8, 0x22#8]) = .ok i) ∧ (∃ i, decode (.wire [0x61#8, 0x62#8, 0x22#8, 0x22#8]) = .ok i) ∧
    (∃ i, decode (.cmd 0b110#3 []) = .ok i) :=
  ⟨⟨.dataFrame [0x7B#8, 0x7D#8], by decide +kernel⟩, ⟨feed [0x61#8, 0x62#8, 0x22#8, 0x22#8], by decide +kernel⟩, ⟨.reservedCmd 0#1, by decide +kernel⟩⟩

theorem test_witness_Step :
    idle.port = [] ∧ decode (.cmd 0b011#3 []) = .ok .close ∧ decode (.error 0b000#3) = .error .noError := by decide +kernel

theorem test_witness_SpecWords :
    13 ≤ (0b1101#4).toNat ∧ 13 ≤ (0b1111#4).toNat ∧ (0b000#3).toNat = 0 ∧ 5 ≤ (0b101#3).toNat ∧ 5 ≤ (0b111#3).toNat := by
  decide +kernel

theorem test_witness_Create : gone.chan.alive = false := by decide +kernel

/-- Both branches of CONNECT. -/
theorem test_witness_Connect :
    idle.chan.alive = true ∧ idle.chan.connected = true ∧ (waiting []).chan.alive = true ∧ (waiting []).chan.connected = false := by
  decide +kernel

theorem test_witness_SendQueues : idle.chan.alive = true ∧ idle.chan.connected = true ∧ idle.chan.sending = false := by
  decide +kernel

/-- Both reasons for a rejection. -/
theorem test_witness_SendRejected :
    ((waiting []).chan.alive = true ∧ (waiting []).chan.connected = false) ∧
    ((busy f1).chan.alive = true ∧ (busy f1).chan.sending = true) := by decide +kernel

theorem test_witness_Close : (busy f1).chan.alive = true ∧ (busy f1).chan.resumeUart = true := by decide +kernel

theorem test_witness_Destroy :
    State.reset.chan.alive = true ∧ State.reset.chan.armed = false := by decide +kernel

/-- One state for each refusal; the driver takes one byte more than it was offered. -/
theorem test_witness_Refusals :
    (gone.chan.alive = false ∧ Instr.connect.format = .cmd ∧ (∀ wait max, Instr.connect ≠ .create wait max)) ∧
    idle.chan.alive = true ∧ State.reset.chan.armed = false ∧ idle.chan.armed = true ∧
    min (receivePhase [] (busy hs).chan).chan.txBuf.length 4 < 5 :=
  ⟨⟨by decide +kernel, by decide +kernel, by intros; simp⟩, by decide +kernel, by decide +kernel, by decide +kernel,
    by decide +kernel⟩

/-- One state for each refusal, and offsets inside the buffer, at its end and past it. -/
theorem test_witness_OwnRefusals :
    (State.reset.chan.alive = true ∧ State.reset.chan.armed = false) ∧
    ((busy hs).chan.alive = true ∧ (busy hs).chan.armed = true ∧ min (busy hs).chan.txBuf.length 7 < 8) ∧
    (gone.chan.alive = false ∧ Instr.delim.format = .wire ∧ Instr.evOpen.format = .event ∧ Instr.errOversize.format = .error ∧
      Instr.errOversize ≠ .errSetupFailure) ∧
    ((open0 [0x61#8, 0x62#8]).chan.alive = true ∧ (open0 [0x61#8, 0x62#8]).chan.armed = true) ∧ (1 : Nat) ≠ 0 ∧ (2 : Nat) ≠ 0 ∧ (3 : Nat) ≠ 0 := by
  decide +kernel

/-- For FindDelimAnswersTheLeftmostOffset, ExtractOneHandlesThenRemoves (`k = 0` and `k ≠ 0`) and
ExtractFramesLeavesAnIncompleteSpan (a delimiter and none): alive and armed. -/
theorem test_witness_Detector :
    ((open0 [0x78#8, 0x22#8, 0x22#8, 0x22#8]).chan.alive = true ∧ (open0 [0x78#8, 0x22#8, 0x22#8, 0x22#8]).chan.armed = true) ∧ delimAt (open0 [0x78#8, 0x22#8, 0x22#8, 0x22#8]).chan.rxBuf 1 ∧
    (∀ j, j < 1 → ¬ delimAt (open0 [0x78#8, 0x22#8, 0x22#8, 0x22#8]).chan.rxBuf j) ∧ delimAt (open0 [0x22#8, 0x22#8, 0x22#8]).chan.rxBuf 0 ∧
    noDelim (open0 [0x78#8, 0x22#8, 0x22#8]).chan.rxBuf :=
  ⟨by decide +kernel, by decide +kernel, by decide +kernel, by decide +kernel, findDelim_eq_none.mp (by decide +kernel)⟩

/-- A run of seven quotes behind a span and in front of a byte, one of two quotes at the end, and one with nothing in front. -/
theorem test_witness_QuoteRuns :
    ((open0 []).chan.alive = true ∧ (open0 []).chan.armed = true) ∧ noDelim [0x78#8] ∧ noDelim [] ∧
    ([0x78#8] : Bytes).getLast? ≠ some 0x22#8 ∧ ([] : Bytes).getLast? ≠ some 0x22#8 ∧ ([0x61#8, 0x62#8] : Bytes).head? ≠ some 0x22#8 ∧
    ([] : Bytes).head? ≠ some 0x22#8 ∧ (open0 [0x78#8, 0x22#8, 0x22#8, 0x22#8, 0x22#8, 0x22#8, 0x22#8, 0x22#8, 0x61#8, 0x62#8]).chan.rxBuf = [0x78#8] ++ List.replicate 7 0x22#8 ++ [0x61#8, 0x62#8] ∧
    (open0 [0x78#8, 0x22#8, 0x22#8]).chan.rxBuf = [0x78#8] ++ List.replicate 2 0x22#8 ++ [] ∧
    (open0 [0x22#8, 0x22#8, 0x22#8, 0x61#8]).chan.rxBuf = [] ++ List.replicate 3 0x22#8 ++ [0x61#8] :=
  ⟨by decide +kernel, findDelim_eq_none.mp (by decide +kernel), findDelim_eq_none.mp (by decide +kernel), by decide +kernel,
    by decide +kernel, by decide +kernel, by decide +kernel, by decide +kernel, by decide +kernel, by decide +kernel⟩

theorem test_witness_Streaming : noDelim [0x78#8, 0x22#8, 0x22#8] ∧ noDelim [0x78#8, 0x22#8] :=
  ⟨findDelim_eq_none.mp (by decide +kernel), findDelim_eq_none.mp (by decide +kernel)⟩

/-- Two chunks that cut a delimiter, on a Channel whose POST_RX changes nothing. -/
theorem test_witness_Chunking :
    (open0 []).chan.alive = true ∧ (open0 []).chan.armed = true ∧ ([[0x22#8, 0x22#8, 0x22#8, 0x7B#8, 0x7D#8, 0x22#8], [0x22#8, 0x22#8]] : List Bytes) ≠ [] ∧
    (∀ chunk ∈ ([[0x22#8, 0x22#8, 0x22#8, 0x7B#8, 0x7D#8, 0x22#8], [0x22#8, 0x22#8]] : List Bytes), chunk ≠ []) ∧
    (∀ n, n < ([[0x22#8, 0x22#8, 0x22#8, 0x7B#8, 0x7D#8, 0x22#8], [0x22#8, 0x22#8]] : List Bytes).length →
      postRx (receiveChunks (([[0x22#8, 0x22#8, 0x22#8, 0x7B#8, 0x7D#8, 0x22#8], [0x22#8, 0x22#8]] : List Bytes).take (n + 1)) (open0 []).chan).chan =
        quiet (receiveChunks (([[0x22#8, 0x22#8, 0x22#8, 0x7B#8, 0x7D#8, 0x22#8], [0x22#8, 0x22#8]] : List Bytes).take (n + 1)) (open0 []).chan).chan) := by decide +kernel

/-- A message and metadata of seven and of eight bytes, and no message. -/
theorem test_witness_DecodeData :
    idle.chan.alive = true ∧ (msg1 ≠ [] → msg1.getLast? = some 0x7D#8) ∧ (0x7D#8 : Byte) ∉ [0x34#8, 0x34#8, 0x35#8, 0x64#8, 0x66#8, 0x38#8, 0x63#8] ∧
    (0x7D#8 : Byte) ∉ [0x34#8, 0x34#8, 0x35#8, 0x64#8, 0x66#8, 0x38#8, 0x63#8, 0x35#8] ∧ (0x7D#8 : Byte) ∉ [0x6E#8, 0x6F#8, 0x74#8, 0x68#8, 0x65#8, 0x78#8, 0x78#8, 0x78#8] ∧ ((([] : Bytes) ≠ []) → ([] : Bytes).getLast? = some 0x7D#8) := by
  decide +kernel

/-- Eight digits, and eight bytes one of which is none. -/
theorem test_witness_HexParse8 :
    idle.chan.alive = true ∧ (∃ c ∈ ([0x31#8, 0x67#8] : Bytes).take 8, hexValue c = none) ∧
    ([0x44#8, 0x65#8, 0x61#8, 0x64#8, 0x42#8, 0x65#8, 0x65#8, 0x46#8] : Bytes).length = 8 ∧ (∀ c ∈ [0x44#8, 0x65#8, 0x61#8, 0x64#8, 0x42#8, 0x65#8, 0x65#8, 0x46#8], hexValue c ≠ none) ∧ (∃ c ∈ [0x30#8, 0x30#8, 0x30#8, 0x30#8, 0x30#8, 0x30#8, 0x30#8, 0x67#8], hexValue c = none) ∧
    hexParse8 [0x44#8, 0x65#8, 0x61#8, 0x64#8, 0x42#8, 0x65#8, 0x65#8, 0x46#8] = some 0xDEADBEEF#32 := by decide +kernel

/-- For the statements about pure operations, which need a live Channel only: ClassifyKnowsTheHandshakeByte,
SplitMetaAnswersTheLastBrace, Crc32IsTheReflectedPolynomialCode, Hex8WritesTheMostSignificantDigitFirst,
CheckComparesTheFirstEightDigits, EncodersBuildTheWireFormats. -/
theorem test_witness_Pure : idle.chan.alive = true := by decide +kernel

theorem test_witness_RoundTrip :
    ((open0 []).chan.alive = true ∧ (open0 []).chan.armed = true ∧ (open0 []).chan.waitingForStartFrame = false ∧
      (open0 []).chan.rxBuf = []) ∧
    noDelim msg1 ∧ msg1.getLast? = some 0x7D#8 :=
  ⟨by decide +kernel, findDelim_eq_none.mp (by decide +kernel), by decide +kernel⟩

/-- For RxAppendAppendsTheWholeChunk, RxFrameGatesDataSpans, RxHandshakeOpensAndReplies, WireFormatsArriveAsOneChunk: a Channel that
waits and one that does not, a handshake and a data span. -/
theorem test_witness_Phases :
    ((waiting []).chan.alive = true ∧ (waiting []).chan.armed = true ∧ (waiting []).chan.waitingForStartFrame = true) ∧
    ((open0 []).chan.alive = true ∧ (open0 []).chan.armed = true ∧ (open0 []).chan.waitingForStartFrame = false) ∧
    ([0x78#8] : Bytes) ≠ [0x04#8] := by decide +kernel

theorem test_witness_RxData :
    ((open0 []).chan.alive = true ∧ (open0 []).chan.armed = true) ∧
    Machine.decodeData [0x7B#8, 0x22#8, 0x69#8, 0x64#8, 0x22#8, 0x3A#8, 0x31#8, 0x7D#8, 0x34#8, 0x34#8, 0x35#8, 0x64#8, 0x66#8, 0x38#8, 0x63#8, 0x35#8] = .deliver msg1 ∧ Machine.decodeData [0x7B#8, 0x22#8, 0x69#8, 0x64#8, 0x22#8, 0x3A#8, 0x31#8, 0x7D#8, 0x30#8, 0x30#8, 0x30#8, 0x30#8, 0x30#8, 0x30#8, 0x30#8, 0x30#8] = .dropBadChecksum ∧
    Machine.decodeData [0x68#8, 0x65#8, 0x6C#8, 0x6C#8, 0x6F#8] = .dropSilent := by decide +kernel

theorem test_witness_ChecksumIsEnforced :
    ((open0 []).chan.alive = true ∧ (open0 []).chan.armed = true ∧ (open0 []).chan.waitingForStartFrame = false) ∧
    msg1.getLast? = some 0x7D#8 ∧ (0x7D#8 : Byte) ∉ ([0x34#8, 0x34#8, 0x35#8, 0x64#8, 0x66#8, 0x38#8, 0x63#8, 0x35#8] ++ [0x78#8, 0x79#8, 0x7A#8] : Bytes) ∧ ([0x34#8, 0x34#8, 0x35#8, 0x64#8, 0x66#8, 0x38#8, 0x63#8, 0x35#8] : Bytes).length = 8 ∧
    hexParse8 [0x34#8, 0x34#8, 0x35#8, 0x64#8, 0x66#8, 0x38#8, 0x63#8, 0x35#8] = some (crcFn msg1) ∧ hexParse8 [0x30#8, 0x30#8, 0x30#8, 0x30#8, 0x30#8, 0x30#8, 0x30#8, 0x30#8] ≠ some (crcFn msg1) := by decide +kernel

/-- Each branch of POST_RX at its boundary. -/
theorem test_witness_PostRx :
    ((waiting [0x61#8, 0x62#8, 0x63#8, 0x64#8]).chan.alive = true ∧ (waiting [0x61#8, 0x62#8, 0x63#8, 0x64#8]).chan.armed = true) ∧
    (8 + 6 < (List.replicate 15 (0x61#8 : Byte)).length ∧ ¬ 8 + 6 < (List.replicate 14 (0x61#8 : Byte)).length) ∧
    ((waiting [0x61#8, 0x62#8, 0x63#8, 0x64#8]).chan.waitingForStartFrame = true ∧ 3 < (waiting [0x61#8, 0x62#8, 0x63#8, 0x64#8]).chan.rxBuf.length) ∧
    ¬ 3 < (waiting [0x61#8, 0x62#8, 0x63#8]).chan.rxBuf.length := by decide +kernel

/-- TX_DRAIN with no room, with nothing accepted, all but one, and all of it. -/
theorem test_witness_TxDrain :
    ((busy hs).chan.alive = true ∧ (busy hs).chan.armed = true ∧ (busy hs).chan.sending = true) ∧
    0 ≤ min (busy hs).chan.txBuf.length 0 ∧ idle.chan.sending = false ∧
    (6 ≤ min (busy hs).chan.txBuf.length 7 ∧ 6 < (busy hs).chan.txBuf.length) ∧
    (7 ≤ min (busy hs).chan.txBuf.length 7 ∧ 7 = (busy hs).chan.txBuf.length) := by decide +kernel

theorem test_witness_NullDispatch :
    (idle.chan.alive = true ∧ idle.chan.armed = true ∧ idle.chan.sending = false) ∧
    (∀ t, (some 0 : Option Nat) = some t → t ≤ min idle.chan.txBuf.length 0) := by decide +kernel

/-- Input with room, and a driver that takes all seven bytes of the reply. -/
theorem test_witness_BoundedResidue :
    ((waiting []).chan.alive = true ∧ (waiting []).chan.armed = true ∧ hs ≠ []) ∧
    (∀ t, (some 7 : Option Nat) = some t → t ≤ min (receivePhase hs (waiting []).chan).chan.txBuf.length 64) := by
  decide +kernel

/-- For DispatchEmitsInOrder, DispatchConservesTransmitBytes and OpenIsRaisedOnce: a DISPATCH that completes. -/
theorem test_witness_DispatchCompletes : ∃ t, exec (.dispatch hs 64 (some 7)) (waiting []) = .next t := ⟨_, rfl⟩

/-- Without room, and with a frame in flight that the driver takes in the same DISPATCH. -/
theorem test_witness_NothingDelivered :
    noDelim ((open0 [0x78#8, 0x22#8, 0x22#8]).chan.rxBuf ++ [0x79#8, 0x22#8, 0x22#8]) ∧ (∃ t, exec (feed [0x79#8, 0x22#8, 0x22#8]) (open0 [0x78#8, 0x22#8, 0x22#8]) = .next t) ∧
    noDelim ((busy hs).chan.rxBuf ++ [0x79#8, 0x22#8, 0x22#8]) ∧ ∃ t, exec (.dispatch [0x79#8, 0x22#8, 0x22#8] 64 (some 7)) (busy hs) = .next t :=
  ⟨findDelim_eq_none.mp (by decide +kernel), ⟨_, rfl⟩, findDelim_eq_none.mp (by decide +kernel), _, rfl⟩

theorem test_witness_EndToEnd :
    (waiting []).chan.alive = true ∧ (waiting []).chan.armed = true ∧ (waiting []).chan.waitingForStartFrame = true ∧
    (waiting []).chan.connected = false ∧ (waiting []).chan.sending = false ∧ (waiting []).chan.rxBuf = [] ∧
    (waiting []).chan.txBuf = [] := by decide +kernel

/-- A driver that takes all, and one that takes two bytes, then four, then one. -/
theorem test_witness_Draining :
    ((busy hs).chan.alive = true ∧ (busy hs).chan.armed = true ∧ (busy hs).chan.sending = true ∧ (busy hs).chan.txBuf ≠ [] ∧
      0 < 1) ∧
    (∀ p ∈ [(2, 2), (9, 4), (1, 1), (1, 1), (1, 1), (1, 1), (1, 1)], 0 < p.1 ∧ 0 < p.2) ∧ (busy hs).chan.txBuf.length ≤ 7 ∧
    (∃ t, drainWith [(2, 2), (9, 4), (1, 1), (1, 1), (1, 1), (1, 1), (1, 1)] (busy hs) = .next t) :=
  ⟨by decide +kernel, by decide +kernel, by decide +kernel, _, rfl⟩

/-- A delimiter at the front, and none there. -/
theorem test_witness_EmptySpan :
    delimAt (open0 [0x22#8, 0x22#8, 0x22#8, 0x78#8]).chan.rxBuf 0 ∧ ¬ delimAt (open0 [0x78#8, 0x22#8, 0x22#8, 0x22#8]).chan.rxBuf 0 ∧
    (open0 []).chan.alive = true ∧ (open0 []).chan.armed = true := by decide +kernel

theorem test_witness_Events : idle.chan.alive = true := by decide +kernel

theorem test_witness_ErrorKinds : idle.chan.alive = true ∧ gone.chan.alive = false := by decide +kernel

theorem test_witness_ChannelInvariant :
    ChannelInv (present (.cmd 0b011#3 []) (busy hs)).chan ∧ ∃ t, step (present (.cmd 0b011#3 []) (busy hs)) = .next t :=
  ⟨busy_inv, _, rfl⟩

/-- A user frame half drained, and a PUMP that drains the rest; an idle Channel. -/
theorem test_witness_QueueInvariant :
    pump 64 ≠ .close ∧ ChannelInv (busy (f1.drop 16)).chan ∧ QueueInv (busy (f1.drop 16)).chan ∧
    (∃ t, exec (pump 64) (busy (f1.drop 16)) = .next t ∧ t.chan.sending = false) ∧
    (idle.chan.sending = false → idle.chan.txBuf = []) :=
  ⟨by decide +kernel, by constructor <;> decide +kernel,
    ⟨by decide +kernel, fun _ _ => ⟨msg1, 16 |> f1.take, by decide +kernel⟩, by decide +kernel⟩, ⟨_, rfl, by decide +kernel⟩,
    by decide +kernel⟩

theorem test_witness_ResidueInvariant :
    (Instr.dispatch hs 0 none).format = .cmd ∧ ResidueInv (waiting [0x22#8, 0x22#8]).chan ∧
    ∃ t, exec (.dispatch hs 0 none) (waiting [0x22#8, 0x22#8]) = .next t :=
  ⟨rfl, ⟨findDelim_eq_none.mp (by decide +kernel), by decide +kernel⟩, _, rfl⟩

theorem test_witness_Console :
    Instr.close.format = .cmd ∧ ChannelInv (busy hs).chan ∧
    ConsoleInv { busy hs with trace := [.opened, .consoleSuspend, .requestDispatch false] } ∧
    ∃ t, exec .close { busy hs with trace := [.opened, .consoleSuspend, .requestDispatch false] } = .next t :=
  ⟨rfl, busy_inv, by unfold ConsoleInv; decide +kernel, _, rfl⟩

theorem test_witness_Session :
    (feed hs).format = .cmd ∧ ChannelInv (waiting []).chan ∧ SessionInv (waiting []) ∧
    ∃ t, exec (feed hs) (waiting []) = .next t :=
  ⟨rfl, waiting_inv, by unfold SessionInv; decide +kernel, _, rfl⟩

/-- A handshake connects, in a DISPATCH and as a span, and CLOSE disconnects. -/
theorem test_witness_Connected :
    (∃ t, exec (feed hs) (waiting []) = .next t ∧ (waiting []).chan.connected = false ∧ t.chan.connected = true) ∧
    (∃ t, exec (.rxFrame [0x04#8]) (waiting []) = .next t ∧ t.chan.connected = true) ∧
    (ChannelInv idle.chan ∧ ∃ t, exec .close idle = .next t ∧ idle.chan.connected = true ∧ t.chan.connected = false) :=
  ⟨⟨_, rfl, by decide +kernel, by decide +kernel⟩, ⟨_, rfl, by decide +kernel⟩, idle_inv, _, rfl, by decide +kernel, by decide +kernel⟩

theorem test_witness_Configuration :
    (∃ t, exec .connect (st (chan false false false false false false [] [])) = .next t) ∧
    (∀ wait max, Instr.connect ≠ .create wait max) := ⟨⟨_, rfl⟩, by intros; simp⟩

/-- Room for exactly the reply, a span that is delivered, an operation on a destroyed Channel, and one that moves the state. -/
theorem test_witness_NamedStates_rows :
    ((waiting []).chan.rxBuf = [] ∧ (waiting []).chan.txBuf.length + 7 ≤ 7) ∧
    ((open0 []).chan.waitingForStartFrame = false ∧ fsmState (open0 []).chan = .connecting ∧ msg1 ≠ [0x04#8] ∧
      Machine.decodeData msg1 = .deliver msg1) ∧
    ((∀ w m, Instr.connect ≠ .create w m) ∧ Instr.connect ≠ .errSetupFailure) ∧
    ∃ t, exec .connect (st (chan false false false false false false [] [])) = .next t :=
  ⟨by decide +kernel, by decide +kernel, ⟨by intros; simp, by decide +kernel⟩, _, rfl⟩

/-- Every named state (R25), in a Channel that keeps the invariant. -/
theorem test_witness_NamedStates :
    (ChannelInv gone.chan ∧ fsmState gone.chan = .destroyed) ∧
    (ChannelInv (st (chan false false false false false false [] [])).chan ∧
      fsmState (chan false false false false false false [] []) = .disconnected) ∧
    (ChannelInv (waiting []).chan ∧ fsmState (waiting []).chan = .connecting) ∧
    (ChannelInv idle.chan ∧ fsmState idle.chan = .connectedIdle) ∧
    (ChannelInv (st (chan false true true false false true [] hs)).chan ∧
      fsmState (chan false true true false false true [] hs) = .connectedSendingReply) ∧
    (ChannelInv (busy hs).chan ∧ fsmState (busy hs).chan = .connectedSendingUser) :=
  ⟨⟨gone_inv, by decide +kernel⟩, ⟨closed_inv, by decide +kernel⟩, ⟨waiting_inv, by decide +kernel⟩,
    ⟨idle_inv, by decide +kernel⟩, ⟨reply_inv, by decide +kernel⟩, ⟨busy_inv, by decide +kernel⟩⟩

end Sys2Proof.Tests
end

section
/-! PROOFS. The delimiter detector (40_delimiter_detector.md): FIND_DELIM, EXTRACT_ONE and EXTRACT_FRAMES as steps of the machine. -/

namespace Sys2Proof.Machine

/-! ## Running operations -/

/-- A phase of DISPATCH completes on a Channel that is alive and armed (R122, R130). -/
theorem phase_of_armed {s : State} (halive : s.chan.alive = true) (harmed : s.chan.armed = true) (f : Channel → Effect) :
    phase s f = .next (s.commit (f s.chan) .none) :=
  phase_next.mpr ⟨halive, harmed, rfl⟩

/-- An operation without effect leaves its result only. -/
theorem commit_quiet_chan (s : State) (r : OpResult) : s.commit (quiet s.chan) r = { s with result := r } := by
  simp [State.commit]

theorem execAll_singleton (i : Instr) (s : State) : execAll [i] s = exec i s := by
  unfold execAll
  cases exec i s <;> rfl

theorem execAll_cons_of_next {i : Instr} {s t : State} (h : exec i s = .next t) (rest : List Instr) :
    execAll (i :: rest) s = execAll rest t := by
  rw [execAll, h]

theorem exec_findDelim (s : State) : exec .findDelim s = execFindDelim s := rfl

theorem exec_extractOne (k : Nat) (s : State) : exec (.extractOne k) s = execExtractOne k s := rfl

theorem exec_extractFrames (s : State) : exec .extractFrames s = execExtractFrames s := rfl

theorem exec_rxFrame (f : Bytes) (s : State) : exec (.rxFrame f) s = execRxFrame f s := rfl

/-- FIND_DELIM returns what the scan of `rx_buf` finds (R80). -/
theorem exec_findDelim_of_alive {s : State} (halive : s.chan.alive = true) :
    exec .findDelim s = .next { s with result := .offset (findDelim s.chan.rxBuf) } := by
  rw [exec_findDelim, execFindDelim, answer_next]
  exact ⟨halive, rfl⟩

/-- RX_FRAME on a Channel that is alive and armed (R124). -/
theorem exec_rxFrame_of_armed {s : State} (halive : s.chan.alive = true) (harmed : s.chan.armed = true) (f : Bytes) :
    exec (.rxFrame f) s = .next (s.commit (rxFrame f s.chan) .none) := by
  rw [exec_rxFrame, execRxFrame, phase_of_armed halive harmed]

/-- EXTRACT_ONE at an offset inside `rx_buf`, on a Channel that is alive and armed (R82). -/
theorem exec_extractOne_of_armed {s : State} {k : Nat} (halive : s.chan.alive = true) (harmed : s.chan.armed = true)
    (hk : k ≤ s.chan.rxBuf.length) : exec (.extractOne k) s = .next (s.commit (extractOne k s.chan) .none) := by
  rw [exec_extractOne, execExtractOne_inside hk]
  exact ⟨halive, harmed, rfl⟩

/-- EXTRACT_FRAMES on a Channel that is alive and armed (R84). -/
theorem exec_extractFrames_of_armed {s : State} (halive : s.chan.alive = true) (harmed : s.chan.armed = true) :
    exec .extractFrames s = .next (s.commit (extractFrames s.chan) .none) := by
  rw [exec_extractFrames, execExtractFrames, phase_of_armed halive harmed]

/-! ## One span -/

/-- An empty span is only removed, with its delimiter (R83). -/
theorem extractOne_zero (c : Channel) : extractOne 0 c = quiet { c with rxBuf := c.rxBuf.drop 3 } := rfl

/-- A non-empty span is handed on, and then it is removed with its delimiter (R82). -/
theorem extractOne_of_ne_zero {k : Nat} (hk : k ≠ 0) (c : Channel) :
    extractOne k c = (rxFrame (c.rxBuf.take k) c).andThen (consumeRx (k + 3)) := by
  rw [extractOne, extractSpan, if_neg hk]
  rfl

/-- A removal from `rx_buf` after another effect changes `rx_buf` only. -/
theorem commit_andThen_consumeRx (s : State) (e : Effect) (n : Nat) (r : OpResult) :
    s.commit (e.andThen (consumeRx n)) r =
      { s.commit e r with chan := { e.chan with rxBuf := e.chan.rxBuf.drop n } } := by
  simp [State.commit]

/-- EXTRACT_ONE of a non-empty span is RX_FRAME of the span, and then the removal of the span and its delimiter (R82). -/
theorem commit_extractOne_of_ne_zero {k : Nat} (hk : k ≠ 0) (s : State) (r : OpResult) :
    s.commit (extractOne k s.chan) r =
      { s.commit (rxFrame (s.chan.rxBuf.take k) s.chan) r with
        chan := { (rxFrame (s.chan.rxBuf.take k) s.chan).chan with rxBuf := s.chan.rxBuf.drop (k + 3) } } := by
  rw [extractOne_of_ne_zero hk, commit_andThen_consumeRx, rxFrame_rxBuf]

/-! ## The loop -/

/-- One turn of EXTRACT_FRAMES as a step of the machine: EXTRACT_ONE at the leftmost delimiter leaves a Channel that is still alive and
armed, and EXTRACT_FRAMES goes on from there (R84). -/
theorem exec_extractFrames_turn {s : State} {k : Nat} (halive : s.chan.alive = true) (harmed : s.chan.armed = true)
    (hk : findDelim s.chan.rxBuf = some k) :
    exec .extractFrames s = exec .extractFrames (s.commit (extractOne k s.chan) .none) := by
  have hone : Receives s.chan (extractOne k s.chan) := receives_extractOne k s.chan
  rw [exec_extractFrames_of_armed halive harmed,
    exec_extractFrames_of_armed (hone.alive.trans halive) (hone.armed.trans harmed), commit_chan, commit_commit,
    extractFrames_some hk]

/-! ## The obligations -/

/-- Settles O16, by what the scan of `rx_buf` says when it succeeds and when it fails. -/
theorem findDelimAnswersTheLeftmostOffset : Obligations.FindDelimAnswersTheLeftmostOffset := fun s halive =>
  ⟨findDelim s.chan.rxBuf, exec_findDelim_of_alive halive, fun _ => findDelim_eq_some.mp, findDelim_eq_none.mp⟩

/-- Settles O17: the span up to the delimiter lies inside `rx_buf`, so nothing is drawn, and handling it leaves `rx_buf` alone. -/
theorem extractOneHandlesThenRemoves : Obligations.ExtractOneHandlesThenRemoves := by
  intro s k halive harmed hdelim _
  have hinside : k ≤ s.chan.rxBuf.length := by have := delimAt_lt hdelim; omega
  constructor
  · intro _
    rw [exec_extractOne_of_armed halive harmed (Nat.zero_le _), extractOne_zero]
    simp [State.commit]
  · intro hk
    refine ⟨_, exec_rxFrame_of_armed halive harmed _, ?_⟩
    rw [exec_extractOne_of_armed halive harmed hinside, commit_extractOne_of_ne_zero hk, commit_chan]

/-- Settles O18: one turn of the loop is `exec_extractFrames_turn`; what the loop leaves in `rx_buf` is `extractFrames_rxBuf`, and what it
keeps of the rest of the Channel is `receives_extractFrames`. -/
theorem extractFramesLeavesAnIncompleteSpan : Obligations.ExtractFramesLeavesAnIncompleteSpan := by
  intro s halive harmed
  refine ⟨fun hnone => ?_, fun k hdelim hleft => ?_, ?_⟩
  · rw [exec_extractFrames_of_armed halive harmed, extractFrames_none _ (findDelim_eq_none.mpr hnone), commit_quiet_chan]
  · have hinside : k ≤ s.chan.rxBuf.length := by have := delimAt_lt hdelim; omega
    rw [execAll_cons_of_next (exec_extractOne_of_armed halive harmed hinside), execAll_singleton,
      exec_extractFrames_turn halive harmed (findDelim_eq_some.mpr ⟨hdelim, hleft⟩)]
  · obtain ⟨hnone, hsuffix⟩ := extractFrames_rxBuf s.chan
    have hkeeps : Receives s.chan (extractFrames s.chan) := receives_extractFrames s.chan
    exact ⟨_, exec_extractFrames_of_armed halive harmed, findDelim_eq_none.mp hnone, hsuffix, hkeeps.waitFor, hkeeps.maxFrame,
      hkeeps.armed, hkeeps.alive, hkeeps.userFrame, hkeeps.resume, List.prefix_append _ _, rfl, rfl, rfl⟩

end Sys2Proof.Machine
end

section
/-! PROOFS. The frame decoder (41_frame_decoder.md): CLASSIFY and SPLIT_META as steps of the machine. -/

namespace Sys2Proof.Machine

open Sys2Proof.Config

/-! ## Running operations -/

theorem exec_classify (f : Bytes) (s : State) : exec (.classify f) s = execClassify f s := rfl

theorem exec_splitMeta (f : Bytes) (s : State) : exec (.splitMeta f) s = execSplitMeta f s := rfl

/-- A pure operation on a live Channel leaves its result and nothing else. -/
theorem answer_of_alive {s : State} (halive : s.chan.alive = true) (r : OpResult) :
    answer s r = .next { s with result := r } :=
  answer_next.mpr ⟨halive, rfl⟩

/-- CLASSIFY on a live Channel (R90). -/
theorem exec_classify_of_alive {s : State} (halive : s.chan.alive = true) (f : Bytes) :
    exec (.classify f) s = .next { s with result := .spanClass (classify f) } := by
  rw [exec_classify, execClassify, answer_of_alive halive]

/-- SPLIT_META on a live Channel (R93). -/
theorem exec_splitMeta_of_alive {s : State} (halive : s.chan.alive = true) (f : Bytes) :
    exec (.splitMeta f) s = .next { s with result := .splitPoint (splitMeta f) } := by
  rw [exec_splitMeta, execSplitMeta, answer_of_alive halive]

/-! ## The handshake byte -/

/-- The handshake span by its length and its byte (R91). -/
theorem eq_handshake_iff (f : Bytes) : f = [hsByte] ↔ f.length = 1 ∧ f[0]? = some hsByte := by
  constructor
  · rintro rfl
    exact ⟨rfl, rfl⟩
  · rintro ⟨hlen, hbyte⟩
    obtain ⟨b, rfl⟩ := List.length_eq_one_iff.mp hlen
    rw [List.getElem?_cons_zero, Option.some.injEq] at hbyte
    rw [hbyte]

theorem classify_eq_ite (f : Bytes) :
    classify f = if f.length = 1 ∧ f[0]? = some hsByte then .handshake else .data := by
  by_cases h : f = [hsByte]
  · rw [if_pos ((eq_handshake_iff f).mp h), (classify_handshake_iff f).mpr h]
  · rw [if_neg (mt (eq_handshake_iff f).mpr h), (classify_data_iff f).mpr h]

/-! ## The last closing brace -/

/-- The byte in front of the split point is a `}`: it ends the message part (R93). -/
theorem getElem?_splitMeta_pred {f : Bytes} (hm : splitMeta f ≠ 0) : f[splitMeta f - 1]? = some rbrace := by
  have hlen : (f.take (splitMeta f)).length = splitMeta f := List.length_take_of_le (splitMeta_le f)
  have hne : f.take (splitMeta f) ≠ [] := fun h => hm (by rw [← hlen, h, List.length_nil])
  have hlast : (f.take (splitMeta f)).getLast? = some rbrace := (splitMeta_spec f).1 hne
  rwa [List.getLast?_eq_getElem?, hlen, List.getElem?_take_of_lt (Nat.sub_one_lt hm)] at hlast

/-- At the split point and behind it stands no `}`: these bytes are the metadata (R93). -/
theorem getElem?_ne_rbrace_of_splitMeta_le {f : Bytes} {j : Nat} (hj : splitMeta f ≤ j) : f[j]? ≠ some rbrace := by
  intro hbyte
  have hdrop : (f.drop (splitMeta f))[j - splitMeta f]? = some rbrace := by
    rw [List.getElem?_drop, Nat.add_sub_cancel' hj, hbyte]
  exact (splitMeta_spec f).2 (List.mem_of_getElem? hdrop)

/-! ## The obligations -/

/-- Settles O22: the one-byte span that CLASSIFY compares with is the span of length 1 with that byte. -/
theorem classifyKnowsTheHandshakeByte : Obligations.ClassifyKnowsTheHandshakeByte := fun _ f halive => by
  rw [exec_classify_of_alive halive, classify_eq_ite]

/-- Settles O23: the split point cuts the span into a message that ends with `}` and metadata without one (`splitMeta_spec`), read byte
by byte. -/
theorem splitMetaAnswersTheLastBrace : Obligations.SplitMetaAnswersTheLastBrace := fun _ f halive =>
  ⟨splitMeta f, exec_splitMeta_of_alive halive f, splitMeta_le f, getElem?_splitMeta_pred,
    fun _ hj _ => getElem?_ne_rbrace_of_splitMeta_le hj⟩

end Sys2Proof.Machine
end

section
/-! PROOFS. The frame encoder (43_frame_encoder.md): ENCODE_FRAME and ENCODE_HANDSHAKE as steps of the machine. -/

namespace Sys2Proof.Machine

open Sys2Proof.Config

/-! ## Running operations -/

theorem exec_encodeFrame (payload : Bytes) (s : State) : exec (.encodeFrame payload) s = execEncodeFrame payload s := rfl

theorem exec_encodeHandshake (s : State) : exec .encodeHandshake s = execEncodeHandshake s := rfl

/-- ENCODE_FRAME on a live Channel (R114). -/
theorem exec_encodeFrame_of_alive {s : State} (halive : s.chan.alive = true) (payload : Bytes) :
    exec (.encodeFrame payload) s = .next { s with result := .bytes (encodeFrame payload) } := by
  rw [exec_encodeFrame, execEncodeFrame, answer_of_alive halive]

/-- ENCODE_HANDSHAKE on a live Channel (R117). -/
theorem exec_encodeHandshake_of_alive {s : State} (halive : s.chan.alive = true) :
    exec .encodeHandshake s = .next { s with result := .bytes encodeHandshake } := by
  rw [exec_encodeHandshake, execEncodeHandshake, answer_of_alive halive]

/-! ## The bytes on the wire -/

/-- The delimiter byte by byte (R58). -/
theorem delim_bytes : delim = [0x22#8, 0x22#8, 0x22#8] := rfl

/-- The handshake frame byte by byte (R117). -/
theorem encodeHandshake_bytes : encodeHandshake = [0x22#8, 0x22#8, 0x22#8, 0x04#8, 0x22#8, 0x22#8, 0x22#8] := rfl

/-- A frame around its payload, which stands in it verbatim (R114). -/
theorem encodeFrame_bytes (payload : Bytes) :
    encodeFrame payload = [0x22#8, 0x22#8, 0x22#8] ++ payload ++ hex8 (crcFn payload) ++ [0x22#8, 0x22#8, 0x22#8] := by
  rw [encodeFrame, delim_bytes]

/-! ## The obligation -/

/-- Settles O31: both encoders only leave their result, whose bytes are `encodeFrame_bytes` and `encodeHandshake_bytes`. -/
theorem encodersBuildTheWireFormats : Obligations.EncodersBuildTheWireFormats := by
  intro s payload halive
  constructor
  · exact ⟨encodeFrame payload, exec_encodeFrame_of_alive halive payload, encodeFrame_bytes payload, encodeFrame_length payload⟩
  · rw [exec_encodeHandshake_of_alive halive, encodeHandshake_bytes]

end Sys2Proof.Machine
end

section
/-! PROOFS. The Channel FSM (44_channel_fsm.md): RX_APPEND as a step of the machine. -/

namespace Sys2Proof.Machine

/-! ## Running the operation -/

theorem exec_rxAppend (rx : Bytes) (s : State) : exec (.rxAppend rx) s = execRxAppend rx s := rfl

/-- RX_APPEND on a Channel that is alive and armed (R123). -/
theorem exec_rxAppend_of_armed {s : State} (halive : s.chan.alive = true) (harmed : s.chan.armed = true) (rx : Bytes) :
    exec (.rxAppend rx) s = .next (s.commit (rxAppend rx s.chan) .none) := by
  rw [exec_rxAppend, execRxAppend, phase_of_armed halive harmed]

/-- An append to `rx_buf` reaches neither the trace nor the errors: of the state only `rx_buf` and the result change (R123). -/
theorem commit_rxAppend (s : State) (rx : Bytes) (r : OpResult) :
    s.commit (rxAppend rx s.chan) r =
      { s with chan := { s.chan with rxBuf := s.chan.rxBuf ++ rx }, result := r } := by
  simp [State.commit]

/-! ## The obligation -/

/-- Settles O33: an alive and armed Channel is all that RX_APPEND asks for, so it commits the whole append. -/
theorem rxAppendAppendsTheWholeChunk : Obligations.RxAppendAppendsTheWholeChunk := fun s rx halive harmed => by
  rw [exec_rxAppend_of_armed halive harmed, commit_rxAppend]

end Sys2Proof.Machine
end

section
/-! PROOFS. Draining (70_reset_and_hazards.md R203; R73's DRAIN): PUMP after PUMP with a driver that takes at least one byte each time
empties `tx_buf`, and the last of them completes the frame. -/

namespace Sys2Proof.Machine

/-! ## Running PUMP -/

theorem exec_dispatch (rx : Bytes) (avail : Nat) (taken : Option Nat) (s : State) :
    exec (.dispatch rx avail taken) s = dispatchChannel rx avail taken s := rfl

theorem receivePhase_nil (c : Channel) : receivePhase [] c = quiet c := rfl

/-- A DISPATCH without input is its transmit phase (R41, R122): it completes when the driver stays within what it is offered. -/
theorem exec_dispatch_nil_next {s t : State} {avail : Nat} {taken : Option Nat} :
    exec (.dispatch [] avail taken) s = .next t ↔
      s.chan.alive = true ∧ s.chan.armed = true ∧ taken.getD (offered s.chan avail) ≤ offered s.chan avail ∧
      t = s.commit (transmitPhase avail (taken.getD (offered s.chan avail)) s.chan) .none := by
  rw [exec_dispatch, dispatchChannel_next, receivePhase_nil, quiet_chan, quiet_andThen]

/-- PUMP is a DISPATCH whose driver accepts all it is offered (R72, R73). -/
theorem exec_pump_of_armed {s : State} (halive : s.chan.alive = true) (harmed : s.chan.armed = true) (n : Nat) :
    exec (pump n) s = .next (s.commit (transmitPhase n (offered s.chan n) s.chan) .none) :=
  exec_dispatch_nil_next.mpr ⟨halive, harmed, le_rfl, rfl⟩

/-- PUMP with nothing in flight changes nothing where no result stands (R20). -/
theorem exec_pump_of_not_sending {s : State} (halive : s.chan.alive = true) (harmed : s.chan.armed = true)
    (hsending : s.chan.sending = false) (hresult : s.result = .none) (n : Nat) : exec (pump n) s = .next s := by
  have hquiet : transmitPhase n (offered s.chan n) s.chan = quiet s.chan := by simp [transmitPhase, drains, hsending]
  rw [exec_pump_of_armed halive harmed, hquiet, commit_quiet_chan, ← hresult]

/-- Repeating an operation that changes nothing changes nothing. -/
theorem execAll_replicate_of_fixed {i : Instr} {s : State} (h : exec i s = .next s) (k : Nat) :
    execAll (List.replicate k i) s = .next s := by
  induction k with
  | zero => rfl
  | succ k ih => rw [List.replicate_succ, execAll_cons_of_next h, ih]

/-! ## One answer of the driver -/

theorem txStream_append (xs ys : List Event) : txStream (xs ++ ys) = txStream xs ++ txStream ys := List.flatMap_append

/-- The completion events that are due on a Channel (R127). -/
def completionEvents (c : Channel) : List Event :=
  (if c.resumeUart then [.consoleResume] else []) ++ (if c.sendingUserFrame then [.frameSent] else [])

/-- A DISPATCH can run, and there is a frame in flight with bytes left. -/
structure InFlight (s : State) : Prop where
  alive : s.chan.alive = true
  armed : s.chan.armed = true
  sending : s.chan.sending = true
  bytesLeft : s.chan.txBuf ≠ []

/-- From `s` to `t` the frame in flight was written out and completed: WRITEs that carry `tx_buf`, and behind them the completion
events that were due. -/
structure Drained (s t : State) : Prop where
  chan : t.chan = { s.chan with txBuf := [], sending := false, sendingUserFrame := false, resumeUart := false }
  trace : ∃ writes : List Event, t.trace = s.trace ++ (writes ++ completionEvents s.chan) ∧
    txStream writes = s.chan.txBuf ∧ ∀ e ∈ writes, ∃ bytes, e = .write bytes

/-- A driver that accepts all that is left ends the drain (R127). -/
theorem drained_of_all_taken {s : State} {e : Effect} (hleft : s.chan.txBuf ≠ [])
    (he : e = { chan := { s.chan with txBuf := [], sending := false, resumeUart := false, sendingUserFrame := false }
                trace := (if s.chan.txBuf = [] then [] else [.write s.chan.txBuf]) ++ completionEvents s.chan
                errors := [] }) :
    Drained s (s.commit e .none) := by
  subst he
  refine ⟨rfl, [.write s.chan.txBuf], ?_, ?_, ?_⟩
  · rw [commit_trace, if_neg hleft]
  · simp [txStream, eventTx]
  · simp

/-- What a partial WRITE leaves, drained, is the whole drained: the bytes written first stand in front (R47, R127). -/
theorem Drained.of_part {s t : State} {taken : Nat} (htaken : 0 < taken)
    (h : Drained (s.commit (txWrite taken s.chan) .none) t) : Drained s t := by
  obtain ⟨hchan, writes, htrace, hstream, hwrites⟩ := h
  refine ⟨hchan, .write (s.chan.txBuf.take taken) :: writes, ?_, ?_, ?_⟩
  · rw [htrace, commit_trace, txWrite_trace, if_neg htaken.ne', List.append_assoc]
    rfl
  · rw [← List.singleton_append, txStream_append, hstream]
    simp [txStream, eventTx]
  · simpa using hwrites

/-- The step of the drain: a driver that accepts at least one byte ends it, or leaves less in flight (R127). -/
theorem InFlight.step {s : State} (hs : InFlight s) {avail taken : Nat} (havail : 0 < avail) (htaken : 0 < taken)
    (hle : taken ≤ offered s.chan avail) {u : State} (hu : u = s.commit (transmitPhase avail taken s.chan) .none) :
    Drained s u ∨
      (InFlight u ∧ u.chan.txBuf.length < s.chan.txBuf.length ∧ ∀ t, Drained u t → Drained s t) := by
  subst hu
  rcases transmitPhase_cases avail taken s.chan hle with ⟨hidle, _⟩ | ⟨_, _, hlt, hpart⟩ | ⟨_, _, _, hall⟩
  · rcases hidle with hsending | hroom
    · exact absurd hs.sending (by simp [hsending])
    · omega
  · right
    rw [hpart]
    have hlen : (s.chan.txBuf.drop taken).length = s.chan.txBuf.length - taken := List.length_drop
    refine ⟨⟨hs.alive, hs.armed, hs.sending, ?_⟩, ?_, fun t => Drained.of_part htaken⟩
    · exact List.ne_nil_of_length_pos (by rw [commit_chan, txWrite_chan, hlen]; omega)
    · rw [commit_chan, txWrite_chan, hlen]; omega
  · exact .inl (drained_of_all_taken hs.bytesLeft hall)

/-! ## The whole drain -/

/-- A driver that accepts all it is offered: one PUMP for each byte is enough, and those left over change nothing (R73). -/
theorem InFlight.drained_of_pumps {n : Nat} (hn : 0 < n) (k : Nat) {s : State} (hs : InFlight s) (hk : s.chan.txBuf.length ≤ k) :
    ∃ t, execAll (List.replicate k (pump n)) s = .next t ∧ Drained s t := by
  induction k generalizing s with
  | zero => exact absurd (List.length_eq_zero_iff.mp (Nat.le_zero.mp hk)) hs.bytesLeft
  | succ k ih =>
    have hlen : 0 < s.chan.txBuf.length := List.length_pos_of_ne_nil hs.bytesLeft
    have htaken : 0 < offered s.chan n := lt_min hlen hn
    rw [List.replicate_succ, execAll_cons_of_next (exec_pump_of_armed hs.alive hs.armed n)]
    rcases hs.step hn htaken le_rfl rfl with hdone | ⟨hu, hless, hwhole⟩
    · refine ⟨_, execAll_replicate_of_fixed (exec_pump_of_not_sending ?_ ?_ ?_ rfl n) k, hdone⟩ <;> rw [hdone.chan]
      · exact hs.alive
      · exact hs.armed
    · obtain ⟨t, hrun, ht⟩ := ih hu (by omega)
      exact ⟨t, hrun, hwhole t ht⟩

/-- Nothing in flight ends the run, whatever answers are left. -/
theorem drainWith_of_not_sending {s : State} (h : s.chan.sending = false) (answers : List (Nat × Nat)) :
    drainWith answers s = .next s := by
  cases answers with
  | nil => rfl
  | cons p rest => rw [drainWith, if_pos h]

/-- With a frame in flight, a run that completes has given the first answer to a DISPATCH that completed. -/
theorem drainWith_cons_next {s t : State} (h : s.chan.sending = true) {avail taken : Nat} {rest : List (Nat × Nat)}
    (hrun : drainWith ((avail, taken) :: rest) s = .next t) :
    ∃ u, exec (.dispatch [] avail (some taken)) s = .next u ∧ drainWith rest u = .next t := by
  rw [drainWith, if_neg (by simp [h])] at hrun
  split at hrun
  · exact ⟨_, ‹_›, hrun⟩
  · cases hrun
  · cases hrun

/-- A driver that accepts at least one byte of what it is offered, in its own way each time: one answer for each byte is enough
(R203). -/
theorem InFlight.drained_of_drainWith {answers : List (Nat × Nat)} {s t : State} (hs : InFlight s)
    (hanswers : ∀ p ∈ answers, 0 < p.1 ∧ 0 < p.2) (hlen : s.chan.txBuf.length ≤ answers.length)
    (hrun : drainWith answers s = .next t) : Drained s t := by
  induction answers generalizing s with
  | nil => exact absurd (List.length_eq_zero_iff.mp (Nat.le_zero.mp hlen)) hs.bytesLeft
  | cons p rest ih =>
    obtain ⟨havail, htaken⟩ := hanswers p List.mem_cons_self
    obtain ⟨u, hexec, hrest⟩ := drainWith_cons_next hs.sending hrun
    obtain ⟨_, _, hle, hu⟩ := exec_dispatch_nil_next.mp hexec
    rcases hs.step havail htaken hle hu with hdone | ⟨hu, hless, hwhole⟩
    · rw [drainWith_of_not_sending (by rw [hdone.chan])] at hrest
      cases hrest
      exact hdone
    · rw [List.length_cons] at hlen
      exact hwhole t (ih hu (fun q hq => hanswers q (List.mem_cons_of_mem p hq)) (by omega) hrest)

/-! ## What was emitted -/

theorem txStream_completionEvents (c : Channel) : txStream (completionEvents c) = [] := by
  unfold completionEvents
  cases c.resumeUart <;> cases c.sendingUserFrame <;> rfl

/-- The WRITEs carry all of `tx_buf`, in order, and the completion events put nothing on the TX stream (R34). -/
theorem Drained.txStream_emitted {s t : State} (h : Drained s t) : txStream (emitted s t) = s.chan.txBuf := by
  obtain ⟨_, writes, htrace, hstream, _⟩ := h
  rw [emitted, htrace, List.drop_left, txStream_append, hstream, txStream_completionEvents, List.append_nil]

/-- An event that is no WRITE is raised as often as it was due. -/
theorem Drained.count_emitted {s t : State} (h : Drained s t) {e : Event} (he : ∀ bytes, e ≠ .write bytes) :
    (emitted s t).count e = (completionEvents s.chan).count e := by
  obtain ⟨_, writes, htrace, _, hwrites⟩ := h
  have hnone : writes.count e = 0 := List.count_eq_zero.mpr fun hmem => (hwrites e hmem).elim he
  rw [emitted, htrace, List.drop_left, List.count_append, hnone, Nat.zero_add]

theorem count_frameSent_completionEvents (c : Channel) :
    (completionEvents c).count .frameSent = if c.sendingUserFrame = true then 1 else 0 := by
  unfold completionEvents
  cases c.resumeUart <;> cases c.sendingUserFrame <;> rfl

theorem count_consoleResume_completionEvents (c : Channel) :
    (completionEvents c).count .consoleResume = if c.resumeUart = true then 1 else 0 := by
  unfold completionEvents
  cases c.resumeUart <;> cases c.sendingUserFrame <;> rfl

/-! ## The obligation -/

/-- Settles O48: each answer of the driver ends the drain or leaves less in flight (`InFlight.step`), so by induction on the number
of PUMPs both drivers get through; the events are read off the trace of `Drained`. -/
theorem drainingEndsAndCompletesOnce : Obligations.DrainingEndsAndCompletesOnce := by
  intro s halive harmed hsending hleft drained
  have hs : InFlight s := ⟨halive, harmed, hsending, hleft⟩
  have hdrained {t : State} (h : Drained s t) : drained t :=
    ⟨h.chan, h.txStream_emitted, (h.count_emitted (by simp)).trans (count_frameSent_completionEvents s.chan),
      (h.count_emitted (by simp)).trans (count_consoleResume_completionEvents s.chan)⟩
  constructor
  · intro n hn
    obtain ⟨t, hrun, ht⟩ := hs.drained_of_pumps hn s.chan.txBuf.length le_rfl
    exact ⟨t, hrun, hdrained ht⟩
  · intro answers t hanswers hlen hrun
    exact hdrained (hs.drained_of_drainWith hanswers hlen hrun)

end Sys2Proof.Machine
end

section
/-! PROOFS. The encodings (30_encoding.md): the decoder and the encoder agree, and a step runs what the port presents. -/

namespace Sys2Proof.Machine

open Sys2Proof.Config

/-! ## Wire formats -/

/-- A transmitted frame begins with its delimiter: FIND_DELIM answers offset 0 (R60). -/
theorem findDelim_delim_append (rest : Bytes) : findDelim (delim ++ rest) = some 0 := by
  simp [findDelim]

theorem findDelim_encodeFrame (payload : Bytes) : findDelim (encodeFrame payload) = some 0 := by
  rw [encodeFrame, List.append_assoc, List.append_assoc, findDelim_delim_append]

/-- The payload stands behind the opening delimiter, and 14 bytes of the frame are not payload (R114). -/
theorem encodeFrame_payload (payload : Bytes) :
    ((encodeFrame payload).drop 3).take ((encodeFrame payload).length - 14) = payload := by
  simp [encodeFrame]

theorem decodeWire_encodeFrame (payload : Bytes) : decodeWire (encodeFrame payload) = .dataFrame payload := by
  have hlen : (encodeFrame payload).length = payload.length + 14 := encodeFrame_length payload
  have hshort : ∀ w : Bytes, w.length < 14 → encodeFrame payload ≠ w := by
    rintro w hw rfl
    omega
  rw [decodeWire, if_neg (hshort _ (by decide)), if_neg (hshort _ (by decide)), if_neg (hshort _ (by decide)),
    encodeFrame_payload, if_pos rfl]

/-- What a data span in front of its delimiter is (R62). -/
theorem isDataSpan_iff (message metadata : Bytes) :
    isDataSpan message metadata = true ↔
      message ++ metadata ≠ [] ∧ findDelim (message ++ metadata ++ delim) = some (message ++ metadata).length ∧
        classify (message ++ metadata) = .data ∧ splitMeta (message ++ metadata) = message.length := by
  simp [isDataSpan, and_assoc]

/-- A data span is none of the other wire formats: those begin with a delimiter or are empty (R62). -/
theorem decodeWire_dataSpan {message metadata : Bytes} (h : isDataSpan message metadata = true) :
    decodeWire (message ++ metadata ++ delim) = .dataSpanRx message metadata := by
  obtain ⟨hne, hfind, -, hsplit⟩ := (isDataSpan_iff _ _).mp h
  have hother : ∀ w, findDelim w = some 0 → message ++ metadata ++ delim ≠ w := by
    rintro w hw rfl
    rw [hfind] at hw
    exact hne (List.length_eq_zero_iff.mp (Option.some.inj hw))
  have hspan : (message ++ metadata ++ delim).take ((message ++ metadata ++ delim).length - delimLen) = message ++ metadata := by
    rw [List.length_append, show delim.length = delimLen from rfl, Nat.add_sub_cancel, List.take_left]
  rw [decodeWire, if_neg (by simp), if_neg (hother delim (findDelim_delim_append [])),
    if_neg (hother _ (by rw [List.append_assoc, findDelim_delim_append])), if_neg (hother _ (findDelim_encodeFrame _))]
  simp only [hspan, hsplit, List.take_left, List.drop_left, h, and_self, if_true]

/-! ## Decoding what was encoded -/

theorem decode_reservedCmd (x : BitVec 1) : decode (encode (.reservedCmd x)) = .ok (.reservedCmd x) := by
  revert x; decide

/-- An instruction that is no data span restricts nothing, and its code is read back case by case; the wire formats are the
lemmas above. -/
theorem decode_encode {i : Instr} (h : i.wellFormed = true) : decode (encode i) = .ok i := by
  cases i with
  | dataFrame payload => exact congrArg Except.ok (decodeWire_encodeFrame payload)
  | dataSpanRx message metadata => exact congrArg Except.ok (decodeWire_dataSpan h)
  | reservedCmd x => exact decode_reservedCmd x
  | dispatch rx avail taken => cases taken <;> rfl
  | _ => rfl

/-! ## Encoding what was decoded -/

/-- The operands a command row lists are given back by its encoding (R69). -/
theorem encode_of_decodeCmd {code : BitVec 3} {args : List Operand} {i : Instr} (h : decodeCmd code args = .ok i) :
    i.wellFormed = true ∧ encode i = .cmd code args := by
  have hreserved : ∀ c : BitVec 3, c ∉ [0, 1, 2, 3, 4, 5] → 0b11#2 ++ c.extractLsb' 0 1 = c := by decide
  unfold decodeCmd at h
  split_ifs at h
  case neg =>
    split at h <;> cases h
    exact ⟨rfl, by rw [encode, hreserved code (by simp_all)]⟩
  all_goals
    subst code
    split at h <;> cases h <;> exact ⟨rfl, rfl⟩

/-- The operands an internal operation lists are given back by its encoding, by how many they are (R74). -/
theorem encode_of_decodeInternal {op : InternalOp} {args : List Operand} {i : Instr} (h : decodeInternal op args = .ok i) :
    i.wellFormed = true ∧ encode i = .internal op args := by
  revert h
  rcases args with _ | ⟨a, _ | ⟨b, _ | ⟨c, rest⟩⟩⟩
  · cases op <;> rintro ⟨⟩ <;> exact ⟨rfl, rfl⟩
  · cases a <;> cases op <;> rintro ⟨⟩ <;> exact ⟨rfl, rfl⟩
  · cases a <;> cases b <;> cases op <;> rintro ⟨⟩ <;> exact ⟨rfl, rfl⟩
  · cases a <;> cases b <;> cases op <;> rintro ⟨⟩

/-- The argument of an event is given back by its encoding: three codes carry one, the others none (R70). -/
theorem encode_of_decodeEvent {code : BitVec 4} {args : List Operand} {i : Instr} (h : decodeEvent code args = .ok i) :
    i.wellFormed = true ∧ encode i = .event code args := by
  unfold decodeEvent at h
  by_cases hframe : code = 0b0010#4
  · subst code
    rw [if_pos rfl] at h
    split at h <;> cases h
    exact ⟨rfl, rfl⟩
  by_cases hrequest : code = 0b1001#4
  · subst code
    rw [if_neg (by decide), if_pos rfl] at h
    split at h <;> cases h
    exact ⟨rfl, rfl⟩
  by_cases hwrite : code = 0b1010#4
  · subst code
    rw [if_neg (by decide), if_neg (by decide), if_pos rfl] at h
    split at h <;> cases h
    exact ⟨rfl, rfl⟩
  by_cases hargs : args = []
  · rw [if_neg hframe, if_neg hrequest, if_neg hwrite, if_neg (not_not_intro hargs)] at h
    clear hframe hrequest hwrite
    subst args
    repeat' split at h
    all_goals cases h
    all_goals
      subst code
      exact ⟨rfl, rfl⟩
  · rw [if_neg hframe, if_neg hrequest, if_neg hwrite, if_pos hargs] at h
    cases h

/-- An error code is given back by its encoding (R71). -/
theorem encode_of_decodeErrorCode {code : BitVec 3} {i : Instr} (h : decodeErrorCode code = .ok i) :
    i.wellFormed = true ∧ encode i = .error code := by
  unfold decodeErrorCode at h
  split_ifs at h <;> cases h <;> subst code <;> exact ⟨rfl, rfl⟩

/-- The bytes of a wire format are given back by its encoding (R58 to R62); any others are fed (R67). -/
theorem encode_of_decodeWire (w : Bytes) :
    ((decodeWire w).wellFormed = true ∧ encode (decodeWire w) = .wire w) ∨ decodeWire w = feed w := by
  unfold decodeWire
  split_ifs with hempty hdelim hhs hframe
  · exact .inl ⟨rfl, by rw [hempty]; rfl⟩
  · exact .inl ⟨rfl, by rw [hdelim]; rfl⟩
  · exact .inl ⟨rfl, by rw [hhs]; rfl⟩
  · exact .inl ⟨rfl, congrArg PortItem.wire hframe.symm⟩
  · simp only
    split_ifs with hspan
    · refine .inl ⟨hspan.2, congrArg PortItem.wire ?_⟩
      rw [List.take_append_drop]
      exact hspan.1.symm
    · exact .inr rfl

/-- No instruction is encoded as bytes that are fed: it would be read back as FEED, which is a command (R67). -/
theorem encode_ne_of_fed {w : Bytes} (hfed : decodeWire w = feed w) {j : Instr} (hj : j.wellFormed = true) :
    encode j ≠ .wire w := by
  intro hw
  have hread : Except.ok (decodeWire w) = (.ok j : Except DecodeError Instr) := by rw [← decode_encode hj, hw, decode]
  rw [hfed] at hread
  cases hread
  cases hw

/-! ## The obligations -/

/-- Settles O1, by `decode_encode`: one case for each row of the opcode table. -/
theorem decodeOfEncodeIsTheInstruction : Obligations.DecodeOfEncodeIsTheInstruction := fun _ => decode_encode

/-- Settles O2, port by port. -/
theorem encodeOfDecodeIsTheItem : Obligations.EncodeOfDecodeIsTheItem := by
  intro item i h
  cases item with
  | wire w =>
    cases h
    rcases encode_of_decodeWire w with ⟨hwf, hitem⟩ | hfed
    · exact ⟨hwf, .inl hitem⟩
    · exact ⟨by rw [hfed]; rfl, .inr ⟨w, rfl, hfed, fun j hj => encode_ne_of_fed hfed hj⟩⟩
  | cmd code args => exact (encode_of_decodeCmd h).imp id .inl
  | internal op args => exact (encode_of_decodeInternal h).imp id .inl
  | event code args => exact (encode_of_decodeEvent h).imp id .inl
  | error code => exact (encode_of_decodeErrorCode h).imp id .inl

/-- Settles O3: the three outcomes are the three branches of `step` on what `fetch` takes off the port. -/
theorem stepRunsTheDecodedInstruction : Obligations.StepRunsTheDecodedInstruction := by
  intro s
  refine ⟨fun hport => ?_, fun item rest i hport hdecode => ?_, fun item rest e hport hdecode => ?_⟩
  · simp [step, fetch, hport]
  · simp [step, fetch, hport, hdecode]
  · simp [step, fetch, hport, hdecode]

theorem eventCode_lt (e : Event) : (eventCode e).toNat < 13 := by
  cases e <;> simp [eventCode]

/-- The reserved event codes decode to nothing, whatever argument they carry (R70). -/
theorem code_lt_of_decode_event {code : BitVec 4} {args : List Operand} {i : Instr} (h : decode (.event code args) = .ok i) :
    code.toNat < 13 := by
  have hcode : encode i = .event code args := (encode_of_decodeEvent h).2
  cases i with
  | dispatch rx avail taken => cases taken <;> cases hcode
  | _ => cases hcode <;> exact eventCode_lt _

/-- The error codes that decode are those of the four kinds (R71). -/
theorem code_of_decode_error {code : BitVec 3} {i : Instr} (h : decode (.error code) = .ok i) :
    ∃ kind, code = errorCode (some kind) := by
  have hcode : encode i = .error code := (encode_of_decodeErrorCode h).2
  cases i with
  | dispatch rx avail taken => cases taken <;> cases hcode
  | _ => cases hcode <;> exact ⟨_, rfl⟩

/-- Settles O4: the fixed words evaluate; a code that decodes is the code of its encoding, and no encoding has a reserved one. -/
theorem specWordsDecodeToTheirRows : Obligations.SpecWordsDecodeToTheirRows := by
  refine ⟨by decide, by decide, by decide, by decide, by decide, by decide, by decide, by decide,
    fun code args hcode i h => ?_, fun code hcode i h => ?_⟩
  · exact absurd (code_lt_of_decode_event h) (by omega)
  · obtain ⟨kind, rfl⟩ := code_of_decode_error h
    revert hcode
    cases kind <;> decide

end Sys2Proof.Machine
end

section
/-! PROOFS. The guards (R23, R122, R186): what is refused, and by which name. -/

namespace Sys2Proof.Machine

open Sys2Proof.Config

/-! ## The two preconditions -/

theorem whenAlive_of_alive {s : State} (halive : s.chan.alive = true) (o : Out) : whenAlive s o = o := by
  rw [whenAlive, if_pos halive]

theorem whenAlive_of_dead {s : State} (hdead : s.chan.alive = false) (o : Out) :
    whenAlive s o = .refused .channelNotAlive := by
  rw [whenAlive, if_neg (by simp [hdead])]

theorem whenArmed_of_armed {s : State} (halive : s.chan.alive = true) (harmed : s.chan.armed = true) (o : Out) :
    whenArmed s o = o := by
  rw [whenArmed, whenAlive_of_alive halive, if_pos harmed]

theorem whenArmed_of_unarmed {s : State} (halive : s.chan.alive = true) (hunarmed : s.chan.armed = false) (o : Out) :
    whenArmed s o = .refused .notArmed := by
  rw [whenArmed, whenAlive_of_alive halive, if_neg (by simp [hunarmed])]

theorem whenArmed_of_dead {s : State} (hdead : s.chan.alive = false) (o : Out) :
    whenArmed s o = .refused .channelNotAlive :=
  whenAlive_of_dead hdead _

/-- On a Channel that is not alive only CREATE and SETUP_FAILURE run, and the reserved codes have a refusal of their own (R23, R69,
R154, R186). -/
theorem exec_of_dead {i : Instr} {s : State} (hdead : s.chan.alive = false) (hcreate : ∀ wait max, i ≠ .create wait max)
    (hsetup : i ≠ .errSetupFailure) (hreserved : ∀ x, i ≠ .reservedCmd x) : exec i s = .refused .channelNotAlive := by
  cases i with
  | create wait max => exact absurd rfl (hcreate wait max)
  | errSetupFailure => exact absurd rfl hsetup
  | reservedCmd x => exact absurd rfl (hreserved x)
  | evWrite bytes =>
    change (if bytes = [] then answer s .none else emitAlone s (.write bytes)) = _
    split <;> exact whenAlive_of_dead hdead _
  | _ => exact whenAlive_of_dead hdead _

/-- Whatever else is presented to a Channel that is not alive is refused (R186). -/
theorem exec_refused_of_dead {i : Instr} {s : State} (hdead : s.chan.alive = false)
    (hcreate : ∀ wait max, i ≠ .create wait max) (hsetup : i ≠ .errSetupFailure) : ∃ r, exec i s = .refused r := by
  by_cases hreserved : ∃ x, i = .reservedCmd x
  · obtain ⟨x, rfl⟩ := hreserved
    exact ⟨_, rfl⟩
  · exact ⟨_, exec_of_dead hdead hcreate hsetup (not_exists.mp hreserved)⟩

/-- The driver's answer may not exceed what it was offered after the receive phase (R186). -/
theorem exec_dispatch_of_too_many {s : State} (halive : s.chan.alive = true) (harmed : s.chan.armed = true) {rx : Bytes}
    {avail taken : Nat} (htaken : min (receivePhase rx s.chan).chan.txBuf.length avail < taken) :
    exec (.dispatch rx avail (some taken)) s = .refused .tookMoreThanOffered := by
  rw [exec_dispatch, dispatchChannel, whenArmed_of_armed halive harmed]
  exact if_neg (by rw [Option.getD_some, offered]; omega)

/-! ## EXTRACT_ONE at any offset -/

theorem readPast_eq (draws : Nat) (buf : Bytes) (n : Nat) :
    readPast draws buf n = buf.take n ++ freeBytes draws (n - buf.length) := rfl

/-- EXTRACT_ONE on a Channel that is alive and armed runs at every offset (R82; log entry 6). -/
theorem exec_extractOne_any {s : State} (halive : s.chan.alive = true) (harmed : s.chan.armed = true) (k : Nat) :
    exec (.extractOne k) s =
      .next { s.commit (extractSpan (readPast s.draws s.chan.rxBuf k) k s.chan) .none with
        draws := s.draws + (k - s.chan.rxBuf.length) } := by
  rw [exec_extractOne, execExtractOne, whenArmed_of_armed halive harmed, doneDrawing_next]
  rfl

theorem extractSpan_of_ne_zero (f : Bytes) {k : Nat} (hk : k ≠ 0) (c : Channel) :
    extractSpan f k c = (rxFrame f c).andThen (consumeRx (k + 3)) := by
  rw [extractSpan, if_neg hk]

/-! ## The obligations -/

/-- Settles O13, guard by guard. -/
theorem operationsOutsideTheirPreconditionAreRefused : Obligations.OperationsOutsideTheirPreconditionAreRefused := by
  refine ⟨fun i s hdead hformat hcreate => exec_refused_of_dead hdead hcreate ?_, fun s wait max halive => ?_,
    fun s rx avail taken halive hunarmed => whenArmed_of_unarmed halive hunarmed _, fun s halive harmed => ?_,
    fun s rx avail taken halive harmed htaken => exec_dispatch_of_too_many halive harmed htaken⟩
  · rintro rfl
    exact absurd hformat (by decide)
  · exact if_pos halive
  · exact (whenAlive_of_alive halive _).trans (if_pos harmed)

/-- Settles O14: the guards by name, and EXTRACT_ONE by `exec_extractOne_any`. -/
theorem theModelsOwnRefusals : Obligations.TheModelsOwnRefusals := by
  intro s
  refine ⟨fun halive hunarmed bytes more k avail taken i hi => ?_, fun halive harmed avail taken htaken => ?_,
    fun hdead i hformat hsetup => exec_of_dead hdead ?_ hsetup ?_, fun halive harmed k hk => ?_, fun halive harmed => ?_⟩
  · simp only [List.mem_cons, List.not_mem_nil, or_false] at hi
    rcases hi with rfl | rfl | rfl | rfl | rfl | rfl | rfl | rfl | rfl | rfl | rfl | rfl | rfl <;>
      exact whenArmed_of_unarmed halive hunarmed _
  · exact (whenArmed_of_armed halive harmed _).trans (if_neg (by rw [offered]; omega))
  · rintro wait max rfl
    exact absurd hformat (by simp [Instr.format])
  · rintro x rfl
    exact absurd hformat (by simp [Instr.format])
  · refine ⟨_, exec_rxFrame_of_armed halive harmed _, ?_⟩
    rw [exec_extractOne_any halive harmed, ← readPast_eq, extractSpan_of_ne_zero _ hk, commit_andThen_consumeRx, rxFrame_rxBuf]
    rfl
  · rw [exec_extractOne_of_armed halive harmed (Nat.zero_le _), extractOne_zero]
    simp [State.commit]

/-- Settles O15. -/
theorem reservedCommandsAreAlwaysRefused : Obligations.ReservedCommandsAreAlwaysRefused := fun _ _ => rfl

end Sys2Proof.Machine
end

section
/-! PROOFS. Reset and the life of a Channel (70_reset_and_hazards.md, 44_channel_fsm.md): the commands as steps of the machine. -/

namespace Sys2Proof.Machine

open Sys2Proof.Config

/-! ## Running commands -/

theorem exec_connect_of_alive {s : State} (halive : s.chan.alive = true) :
    exec .connect s = .next (s.commit (connectChannel s.chan) .none) :=
  whenAlive_of_alive halive _

theorem exec_close_of_alive {s : State} (halive : s.chan.alive = true) :
    exec .close s = .next (s.commit (closeChannel s.chan) .none) :=
  whenAlive_of_alive halive _

theorem exec_create_of_dead {s : State} (hdead : s.chan.alive = false) (wait : Bool) (max : Nat) :
    exec (.create wait max) s = .next (s.commit (createChannel wait max) .none) :=
  if_neg (by simp [hdead])

theorem exec_destroy_of_unarmed {s : State} (halive : s.chan.alive = true) (hunarmed : s.chan.armed = false) :
    exec .destroy s = .next (s.commit (destroyChannel s.chan) .none) :=
  (whenAlive_of_alive halive _).trans (if_neg (by simp [hunarmed]))

theorem sendAllowed_iff (c : Channel) : sendAllowed c = true ↔ c.connected = true ∧ c.sending = false := by
  simp [sendAllowed]

theorem exec_send_of_allowed {s : State} (halive : s.chan.alive = true) (hconnected : s.chan.connected = true)
    (hidle : s.chan.sending = false) (payload : Bytes) (consoleOnLine : Bool) :
    exec (.send payload consoleOnLine) s =
      .next (s.commit (queueUserFrame payload consoleOnLine s.chan) (.accepted true)) :=
  (whenAlive_of_alive halive _).trans (if_pos ((sendAllowed_iff _).mpr ⟨hconnected, hidle⟩))

/-- A SEND that is not accepted raises its kind and answers false (R153). -/
theorem exec_send_of_rejected {s : State} (halive : s.chan.alive = true)
    (hrejected : s.chan.connected = false ∨ s.chan.sending = true) (payload : Bytes) (consoleOnLine : Bool) :
    exec (.send payload consoleOnLine) s =
      .next { s with result := .accepted false, errors := s.errors ++ [.sendRejected] } := by
  have hnot : ¬ sendAllowed s.chan = true := by
    rw [sendAllowed_iff]
    rcases hrejected with h | h <;> simp [h]
  refine (whenAlive_of_alive halive _).trans ((if_neg hnot).trans ?_)
  simp [done, State.commit, raise]

/-! ## The commands on a Channel -/

theorem connectChannel_of_connected {c : Channel} (h : c.connected = true) : connectChannel c = quiet c := if_pos h

theorem connectChannel_of_not_connected {c : Channel} (h : c.connected = false) :
    connectChannel c =
      { chan := { c with waitingForStartFrame := c.waitForStartFrame, armed := true }
        trace := [.setDispatcherOn, .rxEnable]
        errors := [] } :=
  if_neg (by simp [h])

/-- An accepted SEND queues the frame byte by byte, and remembers that the console was suspended (R132). -/
theorem queueUserFrame_eq (payload : Bytes) (consoleOnLine : Bool) (c : Channel) :
    queueUserFrame payload consoleOnLine c =
      { chan :=
          { c with
            txBuf := c.txBuf ++ encodeFrame payload, sending := true, sendingUserFrame := true
            resumeUart := c.resumeUart || consoleOnLine }
        trace := (if consoleOnLine = true then [.consoleSuspend] else []) ++ [.requestDispatch false]
        errors := [] } := by
  cases consoleOnLine <;> simp [queueUserFrame, memWrite]

theorem closeChannel_trace (c : Channel) :
    (closeChannel c).trace =
      if c.resumeUart = true then [.setDispatcherOff, .consoleResume, .closed] else [.setDispatcherOff, .closed] := by
  cases h : c.resumeUart <;> simp [closeChannel, h]

/-! ## The Channel at reset -/

theorem noDelim_nil : noDelim [] := fun i => by simp [delimAt]

theorem channelInv_created (wait : Bool) (max : Nat) : ChannelInv (Channel.created wait max) := by
  constructor <;> simp [Channel.created]

theorem residueInv_created (wait : Bool) (max : Nat) : ResidueInv (Channel.created wait max) :=
  ⟨noDelim_nil, Nat.zero_le _⟩

theorem queueInv_created (wait : Bool) (max : Nat) : QueueInv (Channel.created wait max) := by
  constructor <;> simp [Channel.created]

/-! ## The obligations -/

/-- Settles O5. -/
theorem resetGivesTheFreshChannel : Obligations.ResetGivesTheFreshChannel := ⟨rfl, rfl, rfl⟩

/-- Settles O6: the Channel at reset is a created one, and nothing has been emitted. -/
theorem invariantsHoldAfterReset : Obligations.InvariantsHoldAfterReset :=
  ⟨channelInv_created _ _, residueInv_created _ _, queueInv_created _ _, rfl, rfl⟩

/-- Settles O7. -/
theorem createMakesAFreshChannel : Obligations.CreateMakesAFreshChannel := by
  intro s wait max hdead
  rw [exec_create_of_dead hdead]
  simp [State.commit, Channel.created]

/-- Settles O8, by the two cases of CONNECT. -/
theorem connectArmsUnlessConnected : Obligations.ConnectArmsUnlessConnected := by
  intro s halive
  rw [exec_connect_of_alive halive]
  cases hconnected : s.chan.connected with
  | true => rw [connectChannel_of_connected hconnected, if_pos rfl, commit_quiet_chan]
  | false =>
    rw [connectChannel_of_not_connected hconnected, if_neg (by simp)]
    simp [State.commit]

/-- Settles O9. -/
theorem sendQueuesTheFrame : Obligations.SendQueuesTheFrame := by
  intro s payload consoleOnLine halive hconnected hidle
  rw [exec_send_of_allowed halive hconnected hidle, queueUserFrame_eq, encodeFrame_bytes]
  simp [State.commit]

/-- Settles O10. -/
theorem sendRejectedChangesNothing : Obligations.SendRejectedChangesNothing :=
  fun _ payload consoleOnLine halive hrejected => exec_send_of_rejected halive hrejected payload consoleOnLine

/-- Settles O11. -/
theorem closeAbandonsTheSession : Obligations.CloseAbandonsTheSession := by
  intro s halive
  rw [exec_close_of_alive halive, State.commit, closeChannel_trace]
  simp

/-- Settles O12. -/
theorem destroyEndsTheChannel : Obligations.DestroyEndsTheChannel := by
  intro s halive hunarmed
  rw [exec_destroy_of_unarmed halive hunarmed]
  simp [State.commit]

end Sys2Proof.Machine
end

section
/-! PROOFS. The phases of DISPATCH (44_channel_fsm.md R124 to R128), the wire formats, the events and the error kinds, each as a step
of the machine. -/

namespace Sys2Proof.Machine

open Sys2Proof.Config

/-! ## Running operations -/

theorem exec_rxHandshake_of_armed {s : State} (halive : s.chan.alive = true) (harmed : s.chan.armed = true) :
    exec .rxHandshake s = .next (s.commit (rxHandshake s.chan) .none) :=
  phase_of_armed halive harmed _

theorem exec_rxData_of_armed {s : State} (halive : s.chan.alive = true) (harmed : s.chan.armed = true) (f : Bytes) :
    exec (.rxData f) s = .next (s.commit (rxData f s.chan) .none) :=
  phase_of_armed halive harmed _

theorem exec_postRx_of_armed {s : State} (halive : s.chan.alive = true) (harmed : s.chan.armed = true) :
    exec .postRx s = .next (s.commit (postRx s.chan) .none) :=
  phase_of_armed halive harmed _

/-- TX_DRAIN within the bound on the driver's answer is the transmit phase (R127, R186). -/
theorem exec_txDrain_of_armed {s : State} (halive : s.chan.alive = true) (harmed : s.chan.armed = true) {avail taken : Nat}
    (htaken : taken ≤ min s.chan.txBuf.length avail) :
    exec (.txDrain avail taken) s = .next (s.commit (transmitPhase avail taken s.chan) .none) :=
  (whenArmed_of_armed halive harmed _).trans (if_pos htaken)

/-- A wire format arrives as FEED of its bytes (log entry 8), which completes on every armed Channel. -/
theorem exec_feed_of_armed {s : State} (halive : s.chan.alive = true) (harmed : s.chan.armed = true) (bytes : Bytes) :
    exec (feed bytes) s = .next (s.commit (receivePhase bytes s.chan) .none) :=
  arrive_next.mpr ⟨halive, harmed, rfl⟩

/-- EMPTY_SPAN on a Channel that is alive and armed (log entry 9). -/
theorem exec_emptySpan_of_armed {s : State} (halive : s.chan.alive = true) (harmed : s.chan.armed = true) :
    exec .emptySpan s =
      .next (s.commit (if findDelim s.chan.rxBuf = some 0 then extractOne 0 s.chan else quiet s.chan) .none) :=
  phase_of_armed halive harmed fun c => if findDelim c.rxBuf = some 0 then extractOne 0 c else quiet c

theorem emitAlone_of_alive {s : State} (halive : s.chan.alive = true) (e : Event) :
    emitAlone s e = .next { s with trace := s.trace ++ [e], result := .none } :=
  emitAlone_next.mpr ⟨halive, rfl⟩

/-! ## The phases on a Channel -/

theorem rxFrame_handshake (c : Channel) : rxFrame [hsByte] c = rxHandshake c := rfl

/-- A data span is gated while a start frame is awaited (R124, D7). -/
theorem rxFrame_of_waiting {f : Bytes} {c : Channel} (hf : f ≠ [hsByte]) (hwaiting : c.waitingForStartFrame = true) :
    rxFrame f c = quiet c := by
  simp only [rxFrame, (classify_data_iff f).mpr hf, hwaiting, if_true]

theorem rxFrame_of_not_waiting {f : Bytes} {c : Channel} (hf : f ≠ [hsByte]) (hopen : c.waitingForStartFrame = false) :
    rxFrame f c = rxData f c := by
  simp only [rxFrame, (classify_data_iff f).mpr hf, hopen, Bool.false_eq_true, if_false]

theorem rxData_of_deliver {f msg : Bytes} (h : decodeData f = .deliver msg) (c : Channel) :
    rxData f c = emit (.frameReceived msg) c := by
  simp only [rxData, h]

theorem rxData_of_dropBadChecksum {f : Bytes} (h : decodeData f = .dropBadChecksum) (c : Channel) :
    rxData f c = raise .checksumMismatch c := by
  simp only [rxData, h]

theorem rxData_of_dropSilent {f : Bytes} (h : decodeData f = .dropSilent) (c : Channel) : rxData f c = quiet c := by
  simp only [rxData, h]

theorem transmitPhase_of_nothing_to_do {c : Channel} {avail : Nat} (h : c.sending = false ∨ avail = 0) (taken : Nat) :
    transmitPhase avail taken c = quiet c :=
  if_neg (by rcases h with h | h <;> simp [drains, h])

/-! ## The obligations -/

/-- Settles O34: the three branches of RX_FRAME. -/
theorem rxFrameGatesDataSpans : Obligations.RxFrameGatesDataSpans := by
  intro s f halive harmed
  refine ⟨?_, fun hf hopen => ⟨_, ?_, exec_rxData_of_armed halive harmed f⟩, fun hf hwaiting => ?_⟩
  · rintro rfl
    exact ⟨_, exec_rxFrame_of_armed halive harmed _, exec_rxHandshake_of_armed halive harmed⟩
  · rw [exec_rxFrame_of_armed halive harmed, rxFrame_of_not_waiting hf hopen]
  · rw [exec_rxFrame_of_armed halive harmed, rxFrame_of_waiting hf hwaiting, commit_quiet_chan]

/-- Settles O35: the three verdicts of the decoder. -/
theorem rxDataDeliversTheMessage : Obligations.RxDataDeliversTheMessage := by
  intro s f halive harmed
  rw [exec_rxData_of_armed halive harmed]
  refine ⟨fun msg h => ?_, fun h => ?_, fun h => ?_⟩
  · rw [rxData_of_deliver h]
    simp [State.commit]
  · rw [rxData_of_dropBadChecksum h]
    simp [State.commit]
  · rw [rxData_of_dropSilent h, commit_quiet_chan]

/-- Settles O37: with a frame in flight the policy skips the reply (D8), otherwise it is queued. -/
theorem rxHandshakeOpensAndReplies : Obligations.RxHandshakeOpensAndReplies := by
  intro s halive harmed
  rw [exec_rxHandshake_of_armed halive harmed, ← encodeHandshake_bytes]
  cases hsending : s.chan.sending <;>
    simp [State.commit, rxHandshake, rxHandshakeWith, replyDue, hsReplyWhenBusy, memWrite, hsending]

/-- Settles O38, by the three cases of POST_RX. -/
theorem postRxDropsThenTrims : Obligations.PostRxDropsThenTrims := by
  intro s halive harmed
  rw [exec_postRx_of_armed halive harmed]
  rcases postRx_cases s.chan with ⟨hover, h⟩ | ⟨hfits, hwaiting, hlong, h⟩ | ⟨hfits, hstays, h⟩
  · rw [h, if_pos hover]
    simp [State.commit]
  · rw [h, if_neg (by omega), if_pos ⟨hwaiting, hlong⟩]
    simp [State.commit]
  · have hno : ¬ (s.chan.waitingForStartFrame = true ∧ 3 < s.chan.rxBuf.length) := by
      rintro ⟨hwaiting, hlong⟩
      rcases hstays with h | h
      · simp [h] at hwaiting
      · omega
    rw [h, if_neg (by omega), if_neg hno, commit_quiet_chan]

/-- Settles O39, by the three cases of the transmit phase. -/
theorem txDrainWritesThenCompletes : Obligations.TxDrainWritesThenCompletes := by
  intro s avail taken halive harmed htaken
  rw [exec_txDrain_of_armed halive harmed htaken]
  refine ⟨fun hidle => ?_, fun hsending hroom hpart => ?_, fun hsending hroom hall => ?_⟩
  · rw [transmitPhase_of_nothing_to_do hidle, commit_quiet_chan]
  all_goals
    rcases transmitPhase_cases avail taken s.chan htaken with ⟨hidle, _⟩ | ⟨_, _, hlt, h⟩ | ⟨_, _, heq, h⟩
  · rcases hidle with h | h
    · simp [h] at hsending
    · omega
  · rw [h]
    simp [State.commit]
  · omega
  · rcases hidle with h | h
    · simp [h] at hsending
    · omega
  · omega
  · rw [h, hall]
    simp [State.commit]

/-- Settles O41: without input, and with nothing in flight or no room, neither phase does anything. -/
theorem nullDispatchChangesNothing : Obligations.NullDispatchChangesNothing := by
  intro s avail taken halive harmed hidle htaken
  refine exec_dispatch_nil_next.mpr ⟨halive, harmed, ?_, ?_⟩
  · cases taken with
    | none => exact le_rfl
    | some n => exact htaken n rfl
  · rw [transmitPhase_of_nothing_to_do hidle, commit_quiet_chan]

/-- Settles O49: a wire row and FEED of the same bytes are the same arrival. -/
theorem wireFormatsArriveAsOneChunk : Obligations.WireFormatsArriveAsOneChunk := by
  intro s payload msg metadata halive harmed
  have harrive (bytes : Bytes) : arrive bytes s = .next (s.commit (receivePhase bytes s.chan) .none) :=
    exec_feed_of_armed halive harmed bytes
  exact ⟨⟨_, harrive delim, harrive delim⟩, ⟨_, harrive encodeHandshake, harrive encodeHandshake⟩,
    ⟨_, harrive (encodeFrame payload), harrive (encodeFrame payload)⟩,
    ⟨_, harrive (msg ++ metadata ++ delim), harrive (msg ++ metadata ++ delim)⟩⟩

/-- Settles O50: FIND_DELIM answers 0 exactly when a delimiter stands at the front. -/
theorem emptySpanIsSkipped : Obligations.EmptySpanIsSkipped := by
  intro s halive harmed
  have hfront : findDelim s.chan.rxBuf = some 0 ↔ delimAt s.chan.rxBuf 0 := by simp [findDelim_eq_some]
  rw [exec_emptySpan_of_armed halive harmed]
  by_cases h : delimAt s.chan.rxBuf 0
  · rw [if_pos h, if_pos (hfront.mpr h), extractOne_zero]
    simp [State.commit]
  · rw [if_neg h, if_neg (mt hfront.mp h), commit_quiet_chan]

/-- Settles O51: every event row is `emit` of its event, but for a WRITE of no bytes (D28). -/
theorem eventsAreAppendedToTheTrace : Obligations.EventsAreAppendedToTheTrace := by
  intro s bytes fromInterrupt halive
  constructor
  · intro p hp
    simp only [List.mem_cons, List.not_mem_nil, or_false] at hp
    rcases hp with rfl | rfl | rfl | rfl | rfl | rfl | rfl | rfl | rfl | rfl | rfl | rfl <;>
      exact emitAlone_of_alive halive _
  · by_cases hempty : bytes = []
    · rw [if_pos hempty, List.append_nil]
      exact (if_pos hempty).trans (answer_of_alive halive _)
    · rw [if_neg hempty]
      exact (if_neg hempty).trans (emitAlone_of_alive halive _)

/-- Settles O52: every error row is `raise` of its kind, behind its guard. -/
theorem errorKindsTakeTheirEffect : Obligations.ErrorKindsTakeTheirEffect := by
  refine fun s => ⟨fun halive => ⟨?_, ?_, ?_, if_pos halive⟩, fun hdead => ?_⟩
  · exact (whenAlive_of_alive halive _).trans (by simp [done, State.commit])
  · exact (whenAlive_of_alive halive _).trans (by simp [done, State.commit])
  · exact (whenAlive_of_alive halive _).trans (by simp [done, State.commit])
  · exact (if_neg (by simp [hdead])).trans (by simp [done, State.commit])

end Sys2Proof.Machine
end

section
/-! PROOFS. DISPATCH as a whole (44_channel_fsm.md): its phases in order, what it leaves, what it emits, and what becomes of the bytes to
transmit. -/

namespace Sys2Proof.Machine

open Sys2Proof.Config

/-! ## The receive phase -/

/-- What handling spans does to a Channel does not depend on what else `rx_buf` holds. -/
theorem Receives.of_rxBuf {c : Channel} {buf : Bytes} {e : Effect} (h : Receives { c with rxBuf := buf } e) : Receives c e :=
  ⟨h.waitFor, h.maxFrame, h.userFrame, h.resume, h.armed, h.alive, h.session, h.events⟩

/-- The receive phase handles spans, and then changes `rx_buf` only, with at most one OVERSIZE diagnostic (R122, R126). -/
theorem receivePhase_spec (rx : Bytes) (c : Channel) :
    ∃ (spans : Effect) (oversize : List Event), Receives c spans ∧
      (receivePhase rx c).chan = { spans.chan with rxBuf := (receivePhase rx c).chan.rxBuf } ∧
      (receivePhase rx c).trace = spans.trace ++ oversize ∧ (oversize = [] ∨ oversize = [.diagErrorOversize]) := by
  rcases receivePhase_cases rx c with ⟨_, h⟩ | ⟨_, h⟩
  · exact ⟨quiet c, [], receives_quiet c, by rw [h, quiet_chan], by rw [h, List.append_nil], .inl rfl⟩
  · obtain ⟨hchan, _, _, htrace⟩ := postRx_spec (extractFrames { c with rxBuf := c.rxBuf ++ rx }).chan
    refine ⟨_, _, (receives_extractFrames { c with rxBuf := c.rxBuf ++ rx }).of_rxBuf, ?_, ?_, htrace⟩
    · rw [h, andThen_chan]
      exact hchan
    · rw [h, andThen_trace]

theorem receivePhase_alive (rx : Bytes) (c : Channel) : (receivePhase rx c).chan.alive = c.alive := by
  obtain ⟨_, _, hspans, hchan, _⟩ := receivePhase_spec rx c
  rw [hchan]
  exact hspans.alive

theorem receivePhase_armed (rx : Bytes) (c : Channel) : (receivePhase rx c).chan.armed = c.armed := by
  obtain ⟨_, _, hspans, hchan, _⟩ := receivePhase_spec rx c
  rw [hchan]
  exact hspans.armed

theorem noDelim_of_suffix {small buf : Bytes} (hsuffix : small <:+ buf) (h : noDelim buf) : noDelim small := by
  obtain ⟨front, rfl⟩ := hsuffix
  intro i hdelim
  refine h (front.length + i) ?_
  simpa only [delimAt, Nat.add_assoc, List.getElem?_append_right (Nat.le_add_right _ _), Nat.add_sub_cancel_left] using hdelim

/-- With input the receive phase leaves a bounded residue without a delimiter, whatever was held before (R28 items 7 and 8). -/
theorem residueInv_receivePhase {rx : Bytes} (hrx : rx ≠ []) (c : Channel) : ResidueInv (receivePhase rx c).chan := by
  rcases receivePhase_cases rx c with ⟨h, _⟩ | ⟨_, h⟩
  · exact absurd h hrx
  · obtain ⟨hchan, hsuffix, hbounded, _⟩ := postRx_spec (extractFrames { c with rxBuf := c.rxBuf ++ rx }).chan
    obtain ⟨hnone, _⟩ := extractFrames_rxBuf { c with rxBuf := c.rxBuf ++ rx }
    rw [h, andThen_chan]
    refine ⟨noDelim_of_suffix hsuffix (findDelim_eq_none.mp hnone), ?_⟩
    rw [hchan]
    exact hbounded

/-! ## The transmit phase -/

/-- The transmit phase changes `tx_buf` and the flags of the frame in flight only (R127). -/
theorem transmitPhase_chan {avail taken : Nat} {c : Channel} (h : taken ≤ min c.txBuf.length avail) :
    (transmitPhase avail taken c).chan = { c with
      txBuf := (transmitPhase avail taken c).chan.txBuf
      sending := (transmitPhase avail taken c).chan.sending
      sendingUserFrame := (transmitPhase avail taken c).chan.sendingUserFrame
      resumeUart := (transmitPhase avail taken c).chan.resumeUart } := by
  rcases transmitPhase_cases avail taken c h with ⟨_, h⟩ | ⟨_, _, _, h⟩ | ⟨_, _, _, h⟩ <;> rw [h] <;> rfl

/-- The transmit phase emits WRITE, CONSOLE_RESUME and FRAME_SENT in this order, each at most once, and no WRITE of no bytes (R127,
D27, D28). -/
theorem transmitPhase_trace {avail taken : Nat} {c : Channel} (h : taken ≤ min c.txBuf.length avail) :
    ∃ write resume sent : List Event, (transmitPhase avail taken c).trace = write ++ resume ++ sent ∧
      (write = [] ∨ ∃ bytes, bytes ≠ [] ∧ write = [.write bytes]) ∧
      (resume = [] ∨ resume = [.consoleResume]) ∧ (sent = [] ∨ sent = [.frameSent]) := by
  rcases transmitPhase_cases avail taken c h with ⟨_, h⟩ | ⟨_, _, hlt, h⟩ | ⟨_, _, _, h⟩ <;> rw [h]
  · exact ⟨[], [], [], rfl, .inl rfl, .inl rfl, .inl rfl⟩
  · refine ⟨_, [], [], (by rw [txWrite_trace, List.append_nil, List.append_nil]), ?_, .inl rfl, .inl rfl⟩
    by_cases hnone : taken = 0
    · exact .inl (if_pos hnone)
    · refine .inr ⟨c.txBuf.take taken, List.ne_nil_of_length_pos ?_, if_neg hnone⟩
      rw [List.length_take]
      omega
  · refine ⟨_, _, _, (List.append_assoc _ _ _).symm, ?_, ?_, ?_⟩
    · by_cases hnone : c.txBuf = []
      · exact .inl (if_pos hnone)
      · exact .inr ⟨c.txBuf, hnone, if_neg hnone⟩
    · cases c.resumeUart <;> simp
    · cases c.sendingUserFrame <;> simp

/-- No event of a span is among those of the transmit phase. -/
theorem mem_transmitPhase_trace {avail taken : Nat} {c : Channel} (h : taken ≤ min c.txBuf.length avail) {e : Event}
    (he : e ∈ (transmitPhase avail taken c).trace) : (∃ bytes, e = .write bytes) ∨ e = .consoleResume ∨ e = .frameSent := by
  obtain ⟨write, resume, sent, htrace, hwrite, hresume, hsent⟩ := transmitPhase_trace h
  rw [htrace, List.mem_append, List.mem_append] at he
  rcases he with (he | he) | he
  · rcases hwrite with rfl | ⟨bytes, _, rfl⟩
    · cases he
    · exact .inl ⟨bytes, List.mem_singleton.mp he⟩
  · rcases hresume with rfl | rfl
    · cases he
    · exact .inr (.inl (List.mem_singleton.mp he))
  · rcases hsent with rfl | rfl
    · cases he
    · exact .inr (.inr (List.mem_singleton.mp he))

/-! ## DISPATCH -/

/-- Everything a DISPATCH that completes did, with the driver's answer named (R122, R186). -/
theorem exec_dispatch_next {rx : Bytes} {avail : Nat} {taken : Option Nat} {s t : State}
    (h : exec (.dispatch rx avail taken) s = .next t) :
    s.chan.alive = true ∧ s.chan.armed = true ∧ ∃ n, n ≤ min (receivePhase rx s.chan).chan.txBuf.length avail ∧
      t = s.commit ((receivePhase rx s.chan).andThen (transmitPhase avail n)) .none := by
  obtain ⟨halive, harmed, hle, ht⟩ := dispatchChannel_next.mp h
  exact ⟨halive, harmed, _, hle, ht⟩

/-- A DISPATCH on an armed Channel with the driver's answer given: it completes, or the answer is too large (R122, R186). -/
theorem exec_dispatch_some {s : State} (halive : s.chan.alive = true) (harmed : s.chan.armed = true) (rx : Bytes)
    (avail taken : Nat) :
    exec (.dispatch rx avail (some taken)) s =
      exec (.txDrain avail taken) (s.commit (receivePhase rx s.chan) .none) := by
  have halive' := (receivePhase_alive rx s.chan).trans halive
  have harmed' := (receivePhase_armed rx s.chan).trans harmed
  have hlater : exec (.txDrain avail taken) (s.commit (receivePhase rx s.chan) .none) =
      if taken ≤ offered (receivePhase rx s.chan).chan avail then
        done (s.commit (receivePhase rx s.chan) .none) (transmitPhase avail taken (receivePhase rx s.chan).chan) .none
      else .refused .tookMoreThanOffered :=
    whenArmed_of_armed halive' harmed' _
  rw [exec_dispatch, dispatchChannel, whenArmed_of_armed halive harmed, hlater, done, commit_commit]
  rfl

theorem execAll_cons_of_refused {i : Instr} {s : State} {r : Refusal} (h : exec i s = .refused r) (rest : List Instr) :
    execAll (i :: rest) s = .refused r := by
  rw [execAll, h]

/-- The phases of a DISPATCH with input, one by one, leave what the receive phase leaves (R122, R130). -/
theorem execAll_receive {s : State} (halive : s.chan.alive = true) (harmed : s.chan.armed = true) {rx : Bytes} (hrx : rx ≠ [])
    (rest : List Instr) :
    execAll (.rxAppend rx :: .extractFrames :: .postRx :: rest) s = execAll rest (s.commit (receivePhase rx s.chan) .none) := by
  have hframes := receives_extractFrames (rxAppend rx s.chan).chan
  have happended : exec .extractFrames (s.commit (rxAppend rx s.chan) .none) = _ := exec_extractFrames_of_armed halive harmed
  have hextracted : exec .postRx (s.commit ((rxAppend rx s.chan).andThen extractFrames) .none) = _ :=
    exec_postRx_of_armed (hframes.alive.trans halive) (hframes.armed.trans harmed)
  rw [execAll_cons_of_next (exec_rxAppend_of_armed halive harmed rx), execAll_cons_of_next happended, commit_chan,
    commit_commit, execAll_cons_of_next hextracted, commit_chan, commit_commit, receivePhase, if_neg hrx]

/-! ## The events of the phases -/

theorem txStream_eq_nil {trace : List Event} (h : ∀ e ∈ trace, ∀ bytes, e ≠ .write bytes) : txStream trace = [] := by
  refine List.flatMap_eq_nil_iff.mpr fun e he => ?_
  cases e with
  | write bytes => exact absurd rfl (h _ he bytes)
  | _ => rfl

theorem received_append (xs ys : List Event) : received (xs ++ ys) = received xs ++ received ys :=
  List.filterMap_append

theorem received_eq_nil {trace : List Event} (h : ∀ e ∈ trace, ∀ msg, e ≠ .frameReceived msg) : received trace = [] := by
  refine List.filterMap_eq_nil_iff.mpr fun e he => ?_
  cases e with
  | frameReceived msg => exact absurd rfl (h _ he msg)
  | _ => rfl

theorem txStream_spans {c : Channel} {spans : Effect} (h : Receives c spans) : txStream spans.trace = [] := by
  refine txStream_eq_nil fun e he bytes hwrite => ?_
  subst hwrite
  rcases h.events _ he with h | h | ⟨_, _, h⟩ <;> cases h

theorem mem_oversize {oversize : List Event} (h : oversize = [] ∨ oversize = [.diagErrorOversize]) {e : Event}
    (he : e ∈ oversize) : e = .diagErrorOversize := by
  rcases h with rfl | rfl
  · cases he
  · exact List.mem_singleton.mp he

/-- The handshake reply that handling spans queues, if any, goes behind what `tx_buf` held (R128, D8). -/
theorem Receives.txBuf_eq {c : Channel} {e : Effect} (h : Receives c e) :
    ∃ reply, (reply = [] ∨ (reply = encodeHandshake ∧ c.sending = false)) ∧ e.chan.txBuf = c.txBuf ++ reply := by
  rcases h.session with ⟨_, _, _, htx, _⟩ | ⟨_, _, _, htx, _⟩
  · exact ⟨[], .inl rfl, by rw [htx, List.append_nil]⟩
  · cases hsending : c.sending with
    | true => exact ⟨[], .inl rfl, by rw [htx, if_pos hsending, List.append_nil]⟩
    | false => exact ⟨encodeHandshake, .inr ⟨rfl, rfl⟩, by rw [htx, if_neg (by simp [hsending])]⟩

/-- Handling spans raises OPEN exactly when it connects (R128). -/
theorem Receives.count_opened {c : Channel} {e : Effect} (h : Receives c e) :
    e.trace.count .opened = if c.connected = false ∧ e.chan.connected = true then 1 else 0 := by
  rcases h.session with ⟨hconnected, _, _, _, hcount⟩ | ⟨hconnected, _, _, _, hcount⟩
  · rw [hcount, hconnected, if_neg (by simp)]
  · rw [hcount, hconnected]
    cases c.connected <;> rfl

/-- A receive phase raises OPEN exactly when it connects (R128, R136). -/
theorem count_opened_receivePhase (rx : Bytes) (c : Channel) :
    (receivePhase rx c).trace.count .opened =
      if c.connected = false ∧ (receivePhase rx c).chan.connected = true then 1 else 0 := by
  obtain ⟨spans, oversize, hspans, hchan, htrace, hoversize⟩ := receivePhase_spec rx c
  have hnone : oversize.count .opened = 0 :=
    List.count_eq_zero.mpr fun he => Event.noConfusion (mem_oversize hoversize he)
  have hconnected : (receivePhase rx c).chan.connected = spans.chan.connected := by rw [hchan]
  rw [htrace, List.count_append, hnone, hspans.count_opened, hconnected, Nat.add_zero]

theorem count_opened_transmitPhase {avail taken : Nat} {c : Channel} (h : taken ≤ min c.txBuf.length avail) :
    (transmitPhase avail taken c).trace.count .opened = 0 := by
  refine List.count_eq_zero.mpr fun he => ?_
  rcases mem_transmitPhase_trace h he with ⟨_, h⟩ | h | h <;> cases h

/-! ## The obligations -/

/-- Settles O40: on an armed Channel both sides are the receive phase and then TX_DRAIN; on any other the first operation is refused
as DISPATCH is. -/
theorem dispatchIsItsPhasesInOrder : Obligations.DispatchIsItsPhasesInOrder := by
  refine fun s rx avail => ⟨fun taken => ?_, rfl⟩
  by_cases hrx : rx = []
  · rw [if_pos hrx, List.nil_append, execAll_singleton, exec_dispatch, dispatchChannel, hrx, receivePhase_nil]
    simp only [quiet_chan, quiet_andThen]
    rfl
  rw [if_neg hrx]
  cases halive : s.chan.alive with
  | false =>
    have hfirst : exec (.rxAppend rx) s = .refused .channelNotAlive := whenArmed_of_dead halive _
    exact (whenArmed_of_dead halive _).trans (execAll_cons_of_refused hfirst _).symm
  | true =>
    cases harmed : s.chan.armed with
    | false =>
      have hfirst : exec (.rxAppend rx) s = .refused .notArmed := whenArmed_of_unarmed halive harmed _
      exact (whenArmed_of_unarmed halive harmed _).trans (execAll_cons_of_refused hfirst _).symm
    | true =>
      rw [exec_dispatch_some halive harmed]
      exact ((execAll_receive halive harmed hrx [.txDrain avail taken]).trans (execAll_singleton _ _)).symm

/-- Settles O42: the receive phase leaves the residue, and the transmit phase does not touch it. -/
theorem dispatchLeavesABoundedResidue : Obligations.DispatchLeavesABoundedResidue := by
  intro s rx avail taken halive harmed hrx htaken
  have hle : taken.getD (offered (receivePhase rx s.chan).chan avail) ≤ offered (receivePhase rx s.chan).chan avail := by
    cases taken with
    | none => exact le_rfl
    | some n => exact htaken n rfl
  obtain ⟨hnone, hbounded⟩ := residueInv_receivePhase hrx s.chan
  obtain ⟨spans, _, hspans, hchan, _⟩ := receivePhase_spec rx s.chan
  have hconnected : s.chan.connected = true → spans.chan.connected = true := by
    rcases hspans.session with ⟨h, _⟩ | ⟨h, _⟩ <;> simp [h]
  refine ⟨_, dispatchChannel_next.mpr ⟨halive, harmed, hle, rfl⟩, ?_⟩
  rw [hchan] at hbounded
  rw [commit_chan, andThen_chan, transmitPhase_chan hle, hchan]
  exact ⟨hnone, hbounded, hspans.waitFor, hspans.maxFrame, hspans.armed.trans harmed, hspans.alive.trans halive, hconnected,
    List.prefix_append _ _, rfl, rfl⟩

/-- Settles O43: the receive phase emits the spans' events and the diagnostic, the transmit phase the rest. -/
theorem dispatchEmitsInOrder : Obligations.DispatchEmitsInOrder := by
  intro s t rx avail taken h
  obtain ⟨_, _, n, hle, rfl⟩ := exec_dispatch_next h
  obtain ⟨spans, oversize, hspans, _, htrace, hoversize⟩ := receivePhase_spec rx s.chan
  obtain ⟨write, resume, sent, htransmit, hwrite, hresume, hsent⟩ := transmitPhase_trace hle
  refine ⟨spans.trace, oversize, write, resume, sent, ?_, hspans.events, hoversize, hwrite, hresume, hsent⟩
  rw [commit_trace, andThen_trace, htrace, htransmit]
  simp only [List.append_assoc]

/-- Settles O44: the receive phase appends at most one reply and writes nothing; the transmit phase conserves. -/
theorem dispatchConservesTransmitBytes : Obligations.DispatchConservesTransmitBytes := by
  intro s t rx avail taken h
  obtain ⟨_, _, n, hle, rfl⟩ := exec_dispatch_next h
  obtain ⟨spans, oversize, hspans, hchan, htrace, hoversize⟩ := receivePhase_spec rx s.chan
  obtain ⟨reply, hreply, htx⟩ := hspans.txBuf_eq
  have hsilent : txStream oversize = [] :=
    txStream_eq_nil fun e he bytes hwrite => Event.noConfusion ((mem_oversize hoversize he).symm.trans hwrite)
  refine ⟨reply, hreply, ?_⟩
  have hqueued : (receivePhase rx s.chan).chan.txBuf = s.chan.txBuf ++ reply := by
    rw [hchan]
    exact htx
  rw [emitted_commit, andThen_trace, htrace, txStream_append, txStream_append, txStream_spans hspans, hsilent, ← hqueued]
  exact transmitPhase_conserves avail n _ hle

/-- Settles O45: with no delimiter nothing is extracted, so only POST_RX and the transmit phase are left. -/
theorem nothingIsDeliveredBeforeTheClosingDelimiter : Obligations.NothingIsDeliveredBeforeTheClosingDelimiter := by
  intro s t rx avail taken hnone h
  obtain ⟨_, _, n, hle, rfl⟩ := exec_dispatch_next h
  have hreceive : (receivePhase rx s.chan).chan = { s.chan with rxBuf := (receivePhase rx s.chan).chan.rxBuf } ∧
      (receivePhase rx s.chan).chan.rxBuf <:+ s.chan.rxBuf ++ rx ∧
      ∀ e ∈ (receivePhase rx s.chan).trace, e = .diagErrorOversize := by
    rcases receivePhase_cases rx s.chan with ⟨hrx, h⟩ | ⟨_, h⟩
    · rw [h, hrx, List.append_nil]
      exact ⟨rfl, List.suffix_rfl, nofun⟩
    · rw [extractFrames_none _ (findDelim_eq_none.mpr hnone), quiet_andThen] at h
      obtain ⟨hchan, hsuffix, _, htrace⟩ := postRx_spec { s.chan with rxBuf := s.chan.rxBuf ++ rx }
      rw [h]
      exact ⟨hchan, hsuffix, fun e => mem_oversize htrace⟩
  obtain ⟨hchan, hsuffix, hevents⟩ := hreceive
  have htrace : ∀ e ∈ ((receivePhase rx s.chan).andThen (transmitPhase avail n)).trace,
      e ≠ .opened ∧ ∀ msg, e ≠ .frameReceived msg := by
    intro e he
    rw [andThen_trace, List.mem_append] at he
    rcases he with he | he
    · rw [hevents e he]
      exact ⟨nofun, nofun⟩
    · rcases mem_transmitPhase_trace hle he with ⟨_, rfl⟩ | rfl | rfl <;> exact ⟨nofun, nofun⟩
  rw [emitted_commit, commit_chan, andThen_chan]
  refine ⟨received_eq_nil fun e he => (htrace e he).2, fun he => (htrace _ he).1 rfl, ?_, ?_, ?_⟩
  · rw [transmitPhase_chan hle]
    exact hsuffix
  · rw [transmitPhase_chan hle, hchan]
  · rintro rfl
    rw [transmitPhase_of_nothing_to_do (.inr rfl), quiet_chan]
    exact hchan

/-- Settles O46: OPEN comes from the receive phase only. -/
theorem openIsRaisedOnce : Obligations.OpenIsRaisedOnce := by
  intro s t rx avail taken h
  obtain ⟨_, _, n, hle, rfl⟩ := exec_dispatch_next h
  rw [emitted_commit, andThen_trace, List.count_append, count_opened_transmitPhase hle, Nat.add_zero, commit_chan, andThen_chan,
    transmitPhase_chan hle]
  exact count_opened_receivePhase rx s.chan

end Sys2Proof.Machine
end

section
/-! PROOFS. The checksum (42_checksum.md): CRC32 against its other forms, and the conversions between a word and eight digits. -/

namespace Sys2Proof.Machine

open Sys2Proof.Config

/-! ## Running operations -/

theorem exec_crc32_of_alive {s : State} (halive : s.chan.alive = true) (bytes : Bytes) :
    exec (.crc32 bytes) s = .next { s with result := .word (crcFn bytes) } :=
  answer_of_alive halive _

theorem exec_hex8_of_alive {s : State} (halive : s.chan.alive = true) (v : Word32) :
    exec (.hex8 v) s = .next { s with result := .bytes (hex8 v) } :=
  answer_of_alive halive _

theorem exec_check_of_alive {s : State} (halive : s.chan.alive = true) (msg metadata : Bytes) :
    exec (.check msg metadata) s = .next { s with result := .verdict (check msg metadata) } :=
  answer_of_alive halive _

/-- HEXPARSE8 reads the first eight bytes, free ones where the operand has none (R107; log entries 24, 26). -/
theorem exec_hexParse8_of_alive {s : State} (halive : s.chan.alive = true) (h : Bytes) :
    exec (.hexParse8 h) s = .next { s with
      result := .parsed (hexParse8 (h.take 8 ++ freeBytes s.draws (8 - h.length))), draws := s.draws + (8 - h.length) } := by
  refine (whenAlive_of_alive halive _).trans (doneDrawing_next.mpr ?_)
  simp [State.commit, readPast_eq, missing]

/-! ## Reflection (R103) -/

theorem reverse_xor (a b : Word32) : (a ^^^ b).reverse = a.reverse ^^^ b.reverse := by
  ext i hi
  simp [BitVec.getElem_reverse]

/-- A step of the reflected register is the step of the other register, read the other way round. -/
theorem crcBit_reverse (r : Word32) : crcBit r.reverse = (crcBitMsb r).reverse := by
  have hpoly : (0x04C11DB7#32).reverse = 0xEDB88320#32 := by decide +kernel
  have hshift : (r <<< 1).reverse = r.reverse >>> 1 := by
    ext i hi
    simp only [BitVec.getElem_reverse, BitVec.getMsbD_shiftLeft, BitVec.getElem_ushiftRight, BitVec.getLsbD_reverse,
      Nat.add_comm]
  have hbit : r.reverse.getLsbD 0 = r.msb := by rw [BitVec.getLsbD_reverse]; rfl
  unfold crcBit crcBitMsb
  rw [hbit]
  split
  · rw [reverse_xor, hshift, hpoly]
  · rw [hshift]

/-- A reflected byte goes into the low end of the reflected register. -/
theorem crcByte_reverse (r : Word32) (b : Byte) : crcByte r.reverse b = (crcByteMsb r b).reverse := by
  have hbyte : (b.reverse.zeroExtend 32 <<< 24).reverse = b.zeroExtend 32 := by
    ext i hi
    rw [BitVec.getElem_reverse, BitVec.getMsbD_eq_getLsbD]
    grind
  have hiterate (n : Nat) (x : Word32) : crcBit^[n] x.reverse = (crcBitMsb^[n] x).reverse := by
    induction n generalizing x with
    | zero => rfl
    | succ n ih => rw [Function.iterate_succ_apply, Function.iterate_succ_apply, crcBit_reverse, ih]
  rw [crcByte, crcByteMsb, ← hbyte, ← reverse_xor]
  exact hiterate 8 _

theorem crc32_eq_crc32Reflected (bytes : Bytes) : crc32 bytes = crc32Reflected bytes := by
  have hfold (r : Word32) : bytes.foldl crcByte r.reverse = (bytes.foldl crcByteMsb r).reverse := by
    induction bytes generalizing r with
    | nil => rfl
    | cons b rest ih => rw [List.foldl_cons, List.foldl_cons, crcByte_reverse, ih]
  have hones : (0xFFFFFFFF#32).reverse = 0xFFFFFFFF#32 := by decide +kernel
  rw [crc32, crcUpdate, crc32Reflected, ← hfold, hones]

/-! ## The table-driven form (R105) -/

/-- The register is linear: two of them combined go on as the two apart. -/
theorem crcBit_xor (a b : Word32) : crcBit (a ^^^ b) = crcBit a ^^^ crcBit b := by
  have hshift : (a ^^^ b) >>> 1 = a >>> 1 ^^^ b >>> 1 := BitVec.ushiftRight_xor_distrib a b 1
  have hcancel (x y p : Word32) : (x ^^^ p) ^^^ (y ^^^ p) = x ^^^ y :=
    calc (x ^^^ p) ^^^ (y ^^^ p) = (x ^^^ y) ^^^ (p ^^^ p) := by ac_rfl
      _ = x ^^^ y := by rw [BitVec.xor_self, BitVec.xor_zero]
  have hlast (x y p : Word32) : x ^^^ y ^^^ p = x ^^^ (y ^^^ p) := BitVec.xor_assoc x y p
  have hfirst (x y p : Word32) : x ^^^ y ^^^ p = x ^^^ p ^^^ y := by ac_rfl
  unfold crcBit
  rw [BitVec.getLsbD_xor, hshift]
  cases a.getLsbD 0 <;> cases b.getLsbD 0
  · rfl
  · exact hlast _ _ _
  · exact hfirst _ _ _
  · exact (hcancel _ _ _).symm

theorem iterate_crcBit_xor (n : Nat) (a b : Word32) :
    crcBit^[n] (a ^^^ b) = crcBit^[n] a ^^^ crcBit^[n] b := by
  induction n generalizing a b with
  | zero => rfl
  | succ n ih => rw [Function.iterate_succ_apply, crcBit_xor, ih]; rfl

/-- While the bits that leave the register are zero, it is only shifted. -/
theorem iterate_crcBit_of_low_zero (n : Nat) (r : Word32) (h : ∀ i < n, r.getLsbD i = false) : crcBit^[n] r = r >>> n := by
  induction n generalizing r with
  | zero => simp
  | succ n ih =>
    have hbit : crcBit r = r >>> 1 := by rw [crcBit, h 0 (by omega)]; rfl
    have hlow : ∀ i < n, (r >>> 1).getLsbD i = false := fun i hi => by
      rw [BitVec.getLsbD_ushiftRight]
      exact h _ (by omega)
    rw [Function.iterate_succ_apply, hbit, ih _ hlow, Nat.add_comm, BitVec.shiftRight_add]

/-- Eight steps of the register are a shift and one look at the table: the high bits are only shifted, and the low eight are an
entry. -/
theorem iterate_crcBit_eight (r : Word32) : crcBit^[8] r = (r >>> 8) ^^^ crcTableEntry (r.setWidth 8) := by
  have hsplit : r = (r >>> 8 <<< 8) ^^^ (r.setWidth 8).zeroExtend 32 := by
    ext i hi
    by_cases h : i < 8
    · simp [h, BitVec.getLsbD_eq_getElem hi]
    · simp only [BitVec.getElem_xor, BitVec.getElem_shiftLeft, h, decide_false, Bool.not_false, Bool.true_and]
      grind
  have hhigh : (r >>> 8 <<< 8) >>> 8 = r >>> 8 := by
    ext i hi
    rw [BitVec.getElem_ushiftRight, BitVec.getElem_ushiftRight, BitVec.getLsbD_shiftLeft]
    grind
  have hlow : ∀ i < 8, (r >>> 8 <<< 8).getLsbD i = false := fun i hi => by simp [hi]
  calc crcBit^[8] r = crcBit^[8] ((r >>> 8 <<< 8) ^^^ (r.setWidth 8).zeroExtend 32) := by rw [← hsplit]
    _ = crcBit^[8] (r >>> 8 <<< 8) ^^^ crcTableEntry (r.setWidth 8) := iterate_crcBit_xor 8 _ _
    _ = (r >>> 8) ^^^ crcTableEntry (r.setWidth 8) := by rw [iterate_crcBit_of_low_zero 8 _ hlow, hhigh]

/-- One byte by the table: the byte goes into the low end, which the shift drops. -/
theorem crcByte_eq_table (r : Word32) (b : Byte) :
    crcByte r b = (r >>> 8) ^^^ crcTableEntry ((r ^^^ b.zeroExtend 32).setWidth 8) := by
  have hbyte : b.zeroExtend 32 >>> 8 = 0#32 := by
    ext i hi
    simp
  have hshift : (r ^^^ b.zeroExtend 32) >>> 8 = r >>> 8 := by
    rw [BitVec.ushiftRight_xor_distrib, hbyte, BitVec.xor_zero]
  rw [crcByte, ← hshift]
  exact iterate_crcBit_eight _

theorem crc32_eq_crc32TableDriven (bytes : Bytes) : crc32 bytes = crc32TableDriven bytes := by
  have hbyte : crcByte = fun (r : Word32) (b : Byte) => (r >>> 8) ^^^ crcTableEntry ((r ^^^ b.zeroExtend 32).setWidth 8) :=
    funext fun r => funext fun b => crcByte_eq_table r b
  rw [crc32, crcUpdate, hbyte]
  rfl

/-! ## Digits -/

/-- The digits R107 computes are those written out (R65). -/
theorem hexDigit_eq_hexValue : ∀ c : Byte, hexDigit c = hexValue c := by decide +kernel

theorem hexValue_hexChar : ∀ d : BitVec 4, hexValue (hexChar d) = some d.toNat := by decide

theorem lowerHex_hexChar : ∀ d : BitVec 4, lowerHex (hexChar d) = hexChar d := by decide

theorem hexValue_lt : ∀ c : Byte, ∀ d ∈ hexValue c, d < 16 := by decide +kernel

/-- Writing the value of a digit gives it back in lower case (R108). -/
theorem hexChar_of_hexValue : ∀ c : Byte, ∀ d ∈ hexValue c, hexChar (BitVec.ofNat 4 d) = lowerHex c := by decide +kernel

/-- The value of a byte as a digit, 0 for the others. -/
def digitOf (c : Byte) : Nat := (hexValue c).getD 0

/-- The number digits stand for, the first the most significant, behind what was read before (R107). -/
def hexFold (n : Nat) (h : Bytes) : Nat := h.foldl (fun acc c => 16 * acc + digitOf c) n

theorem hexAccumulate_cons (v : Word32) (c : Byte) (rest : Bytes) :
    hexAccumulate v (c :: rest) =
      (hexValue c).bind fun d => hexAccumulate ((v <<< 4) ||| BitVec.ofNat 32 d) rest := by
  rw [hexAccumulate, hexDigit_eq_hexValue]
  cases hexValue c <;> rfl

/-- One byte that is no digit is enough (R107). -/
theorem hexAccumulate_eq_none (v : Word32) (h : Bytes) : hexAccumulate v h = none ↔ ∃ c ∈ h, hexValue c = none := by
  induction h generalizing v with
  | nil => simp [hexAccumulate]
  | cons c rest ih =>
    rw [hexAccumulate_cons, List.exists_mem_cons_iff]
    cases hexValue c with
    | none => simp
    | some d => simp [ih]

/-- One digit shifts the value by a nibble and is added to it, as long as there is room. -/
theorem shiftLeft_or_toNat {v : Word32} {d : Nat} (hd : d < 16) (hv : 16 * v.toNat + d < 2 ^ 32) :
    ((v <<< 4) ||| BitVec.ofNat 32 d).toNat = 16 * v.toNat + d := by
  have hadd : v.toNat <<< 4 + d = v.toNat <<< 4 ||| d := Nat.shiftLeft_add_eq_or_of_lt hd v.toNat
  rw [Nat.shiftLeft_eq] at hadd
  rw [BitVec.toNat_or, BitVec.toNat_shiftLeft, BitVec.toNat_ofNat, Nat.shiftLeft_eq, Nat.mod_eq_of_lt (by omega),
    Nat.mod_eq_of_lt (by omega), ← hadd, Nat.mul_comm]

/-- Reading digits computes the number they stand for, as long as the word has room for it. -/
theorem hexAccumulate_toNat {v w : Word32} {h : Bytes} (hroom : (v.toNat + 1) * 16 ^ h.length ≤ 2 ^ 32)
    (hw : hexAccumulate v h = some w) : w.toNat = hexFold v.toNat h := by
  induction h generalizing v with
  | nil => cases hw; rfl
  | cons c rest ih =>
    rw [hexAccumulate_cons] at hw
    obtain ⟨d, hd, hrest⟩ := Option.bind_eq_some_iff.mp hw
    have hlt : d < 16 := hexValue_lt c d hd
    have hpow : 0 < 16 ^ rest.length := by positivity
    rw [List.length_cons, pow_succ, Nat.mul_comm (16 ^ _), ← Nat.mul_assoc] at hroom
    have hstep : 16 * v.toNat + d < 2 ^ 32 := by nlinarith
    have hnext := shiftLeft_or_toNat hlt hstep
    rw [ih (by rw [hnext]; nlinarith) hrest, hnext, hexFold, hexFold, List.foldl_cons, digitOf, hd, Option.getD_some]

theorem hexParse8_eq_none (h : Bytes) : hexParse8 h = none ↔ ∃ c ∈ h, hexValue c = none := hexAccumulate_eq_none _ h

/-- Eight digits fit in a word (R107). -/
theorem hexParse8_toNat {h : Bytes} {v : Word32} (hlen : h.length = 8) (hv : hexParse8 h = some v) : v.toNat = hexFold 0 h :=
  hexAccumulate_toNat (by rw [hlen]; decide) hv

theorem nibble_toNat (v : Word32) {i : Nat} (hi : i < 8) : (nibble v i).toNat = v.toNat / 16 ^ (7 - i) % 16 := by
  have hpow : 2 ^ (28 - 4 * i) = 16 ^ (7 - i) := by
    rw [show 28 - 4 * i = 4 * (7 - i) by omega]
    exact pow_mul 2 4 (7 - i)
  rw [nibble, BitVec.extractLsb'_toNat, Nat.shiftRight_eq_div_pow, hpow]

theorem hex8_getElem? (v : Word32) {i : Nat} (hi : i < 8) : (hex8 v)[i]? = some (hexChar (nibble v i)) := by
  simp [hex8, hi]

/-- The eight digits written out. -/
theorem hex8_eq (v : Word32) :
    hex8 v = [hexChar (nibble v 0), hexChar (nibble v 1), hexChar (nibble v 2), hexChar (nibble v 3), hexChar (nibble v 4),
      hexChar (nibble v 5), hexChar (nibble v 6), hexChar (nibble v 7)] := rfl

/-- The digits of a word stand for the word (R106). -/
theorem hexFold_hex8 (v : Word32) : hexFold 0 (hex8 v) = v.toNat := by
  have hlt : v.toNat < 2 ^ 32 := v.isLt
  simp only [hexFold, digitOf, hex8_eq, List.foldl_cons, List.foldl_nil, hexValue_hexChar, Option.getD_some, nibble_toNat,
    Nat.reduceLT, Nat.reduceSub, Nat.reducePow]
  omega

theorem mem_hex8 {v : Word32} {c : Byte} (hc : c ∈ hex8 v) : ∃ d, c = hexChar d := by
  obtain ⟨i, _, rfl⟩ := List.mem_map.mp hc
  exact ⟨_, rfl⟩

/-- Reading what HEX8 wrote gives the word back (R108). -/
theorem hexParse8_hex8 (v : Word32) : hexParse8 (hex8 v) = some v := by
  cases hread : hexParse8 (hex8 v) with
  | none =>
    obtain ⟨c, hc, hnone⟩ := (hexParse8_eq_none _).mp hread
    obtain ⟨d, rfl⟩ := mem_hex8 hc
    rw [hexValue_hexChar] at hnone
    cases hnone
  | some w => rw [BitVec.eq_of_toNat_eq ((hexParse8_toNat (hex8_length v) hread).trans (hexFold_hex8 v))]

theorem digitOf_lt (c : Byte) : digitOf c < 16 := by
  cases h : hexValue c with
  | none => simp [digitOf, h]
  | some d => simpa [digitOf, h] using hexValue_lt c d h

theorem hexChar_digitOf {c : Byte} (h : hexValue c ≠ none) : hexChar (BitVec.ofNat 4 (digitOf c)) = lowerHex c := by
  obtain ⟨d, hd⟩ := Option.ne_none_iff_exists'.mp h
  rw [digitOf, hd, Option.getD_some, hexChar_of_hexValue c d hd]

/-- A digit HEX8 writes is known from the nibble of the value. -/
theorem hexChar_nibble {v : Word32} {c : Byte} (i : Nat) (hi : i < 8) (h : v.toNat / 16 ^ (7 - i) % 16 = digitOf c) :
    hexChar (nibble v i) = hexChar (BitVec.ofNat 4 (digitOf c)) := by
  refine congrArg hexChar (BitVec.eq_of_toNat_eq ?_)
  rw [nibble_toNat v hi, h, BitVec.toNat_ofNat, Nat.mod_eq_of_lt (digitOf_lt c)]

/-- Writing what was read gives the digits back in lower case (R108). -/
theorem hex8_of_hexParse8 {h : Bytes} {v : Word32} (hlen : h.length = 8) (hv : hexParse8 h = some v) :
    hex8 v = h.map lowerHex := by
  have hdigits : ∀ c ∈ h, lowerHex c = hexChar (BitVec.ofNat 4 (digitOf c)) := fun c hc => by
    refine (hexChar_digitOf fun hnone => ?_).symm
    rw [(hexParse8_eq_none h).mpr ⟨c, hc, hnone⟩] at hv
    cases hv
  have hvalue : v.toNat = h.foldl (fun acc c => 16 * acc + digitOf c) 0 := hexParse8_toNat hlen hv
  rw [List.map_congr_left hdigits, hex8_eq]
  match h, hlen with
  | [c0, c1, c2, c3, c4, c5, c6, c7], _ =>
    have h0 := digitOf_lt c0
    have h1 := digitOf_lt c1
    have h2 := digitOf_lt c2
    have h3 := digitOf_lt c3
    have h4 := digitOf_lt c4
    have h5 := digitOf_lt c5
    have h6 := digitOf_lt c6
    have h7 := digitOf_lt c7
    simp only [List.foldl_cons, List.foldl_nil] at hvalue
    simp only [List.map_cons, List.map_nil]
    rw [hexChar_nibble (c := c0) 0 (by decide) (by omega), hexChar_nibble (c := c1) 1 (by decide) (by omega),
      hexChar_nibble (c := c2) 2 (by decide) (by omega), hexChar_nibble (c := c3) 3 (by decide) (by omega),
      hexChar_nibble (c := c4) 4 (by decide) (by omega), hexChar_nibble (c := c5) 5 (by decide) (by omega),
      hexChar_nibble (c := c6) 6 (by decide) (by omega), hexChar_nibble (c := c7) 7 (by decide) (by omega)]

/-! ## The verdict -/

theorem check_of_short {metadata : Bytes} (h : metadata.length < 8) (msg : Bytes) : check msg metadata = .absent := if_pos h

theorem check_of_long {metadata : Bytes} (h : 8 ≤ metadata.length) (msg : Bytes) :
    check msg metadata =
      if hexParse8 (metadata.take 8) = none then .unparsable
      else if hexParse8 (metadata.take 8) = some (crcFn msg) then .matches else .mismatch := by
  rw [check, if_neg (Nat.not_lt.mpr h)]
  cases hexParse8 (metadata.take 8) with
  | none => rfl
  | some v => simp [eq_comm]

/-! ## The obligations -/

/-- Settles O25, by the reflection of one step. -/
theorem crc32IsTheReflectedPolynomialCode : Obligations.Crc32IsTheReflectedPolynomialCode := by
  intro s bytes halive
  rw [exec_crc32_of_alive halive, crcFn, crc32_eq_crc32Reflected]

/-- Settles O26, by the linearity of the register. -/
theorem crc32AgreesWithTheTableDrivenForm : Obligations.Crc32AgreesWithTheTableDrivenForm := crc32_eq_crc32TableDriven

/-- Settles O27, digit by digit. -/
theorem hex8WritesTheMostSignificantDigitFirst : Obligations.Hex8WritesTheMostSignificantDigitFirst := by
  intro s v halive
  refine ⟨hex8 v, exec_hex8_of_alive halive v, hex8_length v, fun i hi => ⟨_, hex8_getElem? v hi, ?_, lowerHex_hexChar _⟩⟩
  rw [hexValue_hexChar, nibble_toNat v hi]

/-- Settles O28: with eight bytes nothing is free; the value is `hexParse8_toNat`, and one byte that is no digit is enough for
none. -/
theorem hexParse8ReadsEightDigitsOrNone : Obligations.HexParse8ReadsEightDigitsOrNone := by
  intro s h halive
  refine ⟨fun hlen => ⟨hexParse8 h, ?_, (hexParse8_eq_none h).mpr, fun hdigits => ?_⟩, exec_hexParse8_of_alive halive h,
    fun ⟨c, hc, hnone⟩ => (hexParse8_eq_none _).mpr ⟨c, List.mem_append_left _ hc, hnone⟩⟩
  · rw [exec_hexParse8_of_alive halive, hlen, Nat.sub_self, freeBytes_zero, List.append_nil, ← hlen, List.take_length,
      Nat.add_zero]
  · cases hread : hexParse8 h with
    | none =>
      obtain ⟨c, hc, hnone⟩ := (hexParse8_eq_none h).mp hread
      exact absurd hnone (hdigits c hc)
    | some v => exact ⟨v, rfl, hexParse8_toNat hlen hread⟩

/-- Settles O29. -/
theorem hexConversionsAreInverse : Obligations.HexConversionsAreInverse :=
  ⟨hexParse8_hex8, fun _ _ => hex8_of_hexParse8⟩

/-- Settles O30, by the length of the metadata and what its first eight bytes parse to. -/
theorem checkComparesTheFirstEightDigits : Obligations.CheckComparesTheFirstEightDigits := by
  intro s msg metadata halive
  refine ⟨check msg metadata, exec_check_of_alive halive msg metadata, ?_⟩
  by_cases hshort : metadata.length < 8
  · have hlong : ¬ 8 ≤ metadata.length := by omega
    simp [check_of_short hshort, hshort, hlong]
  · have hlong : 8 ≤ metadata.length := by omega
    rw [check_of_long hlong]
    by_cases hnone : hexParse8 (metadata.take 8) = none
    · simp [hnone, hshort, hlong]
    · by_cases hmatch : hexParse8 (metadata.take 8) = some (crcFn msg) <;> simp [hnone, hmatch, hshort, hlong]

end Sys2Proof.Machine
end

section
/-! PROOFS. The frame decoder (41_frame_decoder.md): DECODE_DATA, and the enforcement of the checksum. -/

namespace Sys2Proof.Machine

open Sys2Proof.Config

/-! ## A message and its metadata -/

theorem exec_decodeData_of_alive {s : State} (halive : s.chan.alive = true) (f : Bytes) :
    exec (.decodeData f) s = .next { s with result := .decoded (decodeData f) } :=
  answer_of_alive halive _

/-- DECODE_DATA on a message that ends with `}` and metadata without one: the split point cuts between them (R96). -/
theorem decodeData_append {msg metadata : Bytes} (hmsg : msg ≠ [] → msg.getLast? = some rbrace) (hmeta : rbrace ∉ metadata) :
    decodeData (msg ++ metadata) =
      if msg = [] then .dropSilent
      else if metadata.length < 8 then .deliver msg
      else if hexParse8 (metadata.take 8) = none ∨ hexParse8 (metadata.take 8) = some (crcFn msg) then .deliver msg
      else .dropBadChecksum := by
  simp only [decodeData, decodeDataWith, splitMeta_append hmsg hmeta, List.take_left, List.drop_left,
    List.length_eq_zero_iff, nonhexMetaPolicy]
  by_cases hempty : msg = []
  · rw [if_pos hempty, if_pos hempty]
  rw [if_neg hempty, if_neg hempty]
  by_cases hshort : metadata.length < 8
  · rw [if_pos hshort, check_of_short hshort]
  · rw [if_neg hshort, check_of_long (Nat.not_lt.mp hshort)]
    by_cases hnone : hexParse8 (metadata.take 8) = none
    · simp [hnone]
    · by_cases hmatch : hexParse8 (metadata.take 8) = some (crcFn msg) <;> simp [hnone, hmatch]

/-- Eight digits decide: a message is delivered exactly when they are its checksum (R96, R101). -/
theorem decodeData_of_digits {msg digits rest : Bytes} {v : Word32} (hmsg : msg.getLast? = some rbrace)
    (hmeta : rbrace ∉ digits ++ rest) (hlen : digits.length = 8) (hv : hexParse8 digits = some v) :
    decodeData (msg ++ digits ++ rest) = if v = crcFn msg then .deliver msg else .dropBadChecksum := by
  have hne : msg ≠ [] := by
    rintro rfl
    cases hmsg
  have hlong : ¬ (digits ++ rest).length < 8 := by rw [List.length_append]; omega
  have htake : (digits ++ rest).take 8 = digits := by rw [← hlen, List.take_left]
  rw [List.append_assoc, decodeData_append (fun _ => hmsg) hmeta, if_neg hne, if_neg hlong, htake, hv]
  simp

/-! ## The obligations -/

/-- Settles O24. -/
theorem decodeDataDeliversOrDrops : Obligations.DecodeDataDeliversOrDrops := by
  intro s msg metadata halive hmsg hmeta
  rw [exec_decodeData_of_alive halive, decodeData_append hmsg hmeta]

/-- Settles O36: the span is too long for a handshake and nothing is awaited, so RX_DATA decides by the digits. -/
theorem checksumIsEnforced : Obligations.ChecksumIsEnforced := by
  intro s msg digits rest v halive harmed hopen hmsg hmeta hlen hv
  have hdata : msg ++ digits ++ rest ≠ [hsByte] := by
    intro h
    have := congrArg List.length h
    simp only [List.length_append, List.length_singleton] at this
    omega
  refine ⟨_, exec_rxFrame_of_armed halive harmed _, ?_⟩
  rw [emitted_commit, commit_chan, rxFrame_of_not_waiting hdata hopen]
  have hdecode := decodeData_of_digits hmsg hmeta hlen hv
  by_cases hmatch : v = crcFn msg
  · rw [if_pos hmatch] at hdecode ⊢
    rw [rxData_of_deliver hdecode]
    exact ⟨rfl, rfl⟩
  · rw [if_neg hmatch] at hdecode ⊢
    rw [rxData_of_dropBadChecksum hdecode]
    exact ⟨rfl, rfl⟩

end Sys2Proof.Machine
end

section
/-! PROOFS. The delimiter detector on a stream (40_delimiter_detector.md R85 to R88): runs of quotes, byte by byte, and in chunks. -/

namespace Sys2Proof.Machine

open Sys2Proof.Config

/-! ## Where a delimiter can stand -/

/-- The three bytes of a delimiter are quotes. -/
theorem quote_of_delimAt {buf : Bytes} {i : Nat} (h : delimAt buf i) (n : Nat) (hlo : i ≤ n) (hhi : n ≤ i + 2) :
    buf[n]? = some quote := by
  obtain ⟨h0, h1, h2⟩ := h
  have hn : n = i ∨ n = i + 1 ∨ n = i + 2 := by omega
  rcases hn with rfl | rfl | rfl <;> assumption

/-- A delimiter cuts the buffer into what stands in front of it and what stands behind it. -/
theorem delimAt_iff_append {buf : Bytes} {i : Nat} :
    delimAt buf i ↔ ∃ front back : Bytes, buf = front ++ delim ++ back ∧ front.length = i := by
  constructor
  · intro h
    have hle := delimAt_lt h
    have hfront : delim.isPrefixOf (buf.drop i) = true := by
      rw [isPrefixOf_delim]
      simpa only [delimAt, List.getElem?_drop, Nat.add_zero] using h
    obtain ⟨back, hback⟩ := List.isPrefixOf_iff_prefix.mp hfront
    refine ⟨buf.take i, back, ?_, List.length_take_of_le (by omega)⟩
    rw [List.append_assoc, hback, List.take_append_drop]
  · rintro ⟨front, back, rfl, rfl⟩
    simp [delimAt]

/-- Bytes behind a delimiter that lies in front of them do not make or unmake it. -/
theorem delimAt_append_left {front : Bytes} {i : Nat} (back : Bytes) (h : i + 3 ≤ front.length) :
    delimAt (front ++ back) i ↔ delimAt front i := by
  simp only [delimAt]
  rw [List.getElem?_append_left (by omega), List.getElem?_append_left (by omega), List.getElem?_append_left (by omega)]

/-- No delimiter begins in front of a span's end when the span holds none and does not end in a quote (R57, R85). -/
theorem not_delimAt_of_lt {span : Bytes} (hnone : noDelim span) (hlast : span.getLast? ≠ some quote) (back : Bytes) {j : Nat}
    (hj : j < span.length) : ¬ delimAt (span ++ back) j := by
  intro h
  by_cases hinside : j + 3 ≤ span.length
  · exact hnone j ((delimAt_append_left back hinside).mp h)
  · have hquote := quote_of_delimAt h (span.length - 1) (by omega) (by omega)
    rw [List.getElem?_append_left (by omega), ← List.getLast?_eq_getElem?] at hquote
    exact hlast hquote

/-- A span that holds no delimiter and does not end in a quote is closed by the delimiter behind it (R80, R85). -/
theorem findDelim_span {span : Bytes} (hnone : noDelim span) (hlast : span.getLast? ≠ some quote) (back : Bytes) :
    findDelim (span ++ (delim ++ back)) = some span.length :=
  findDelim_eq_some.mpr ⟨delimAt_iff_append.mpr ⟨span, back, (List.append_assoc _ _ _).symm, rfl⟩,
    fun _ hj => not_delimAt_of_lt hnone hlast _ hj⟩

/-- Fewer than three quotes are no delimiter (R85). -/
theorem not_delimAt_short_run {span rest : Bytes} {q : Nat} (hnone : noDelim span) (hlast : span.getLast? ≠ some quote)
    (hrest : rest.head? ≠ some quote) (hq : q < 3) {j : Nat} (hj : j ≤ span.length + q) :
    ¬ delimAt (span ++ List.replicate q quote ++ rest) j := by
  by_cases hspan : j < span.length
  · rw [List.append_assoc]
    exact not_delimAt_of_lt hnone hlast _ hspan
  · intro h
    have hquote := quote_of_delimAt h (span.length + q) hj (by omega)
    have hlen : (span ++ List.replicate q quote).length = span.length + q := by
      rw [List.length_append, List.length_replicate]
    rw [List.getElem?_append_right (by rw [hlen]), hlen, Nat.sub_self, ← List.head?_eq_getElem?] at hquote
    exact hrest hquote

theorem noDelim_of_short_run {rest : Bytes} {q : Nat} (hrest : rest.head? ≠ some quote) (hq : q < 3) (hlen : rest.length ≤ 1) :
    noDelim (List.replicate q quote ++ rest) := by
  intro j h
  have hle := delimAt_lt h
  rw [List.length_append, List.length_replicate] at hle
  exact not_delimAt_short_run noDelim_nil (by simp) hrest hq (by rw [List.length_nil]; omega) h

/-- A run of quotes is delimiters and at most two quotes left over (R85). -/
theorem replicate_quote_eq (q : Nat) (rest : Bytes) :
    List.replicate q quote ++ rest =
      List.replicate (3 * (q / 3)) quote ++ (List.replicate (q % 3) quote ++ rest) := by
  rw [← List.append_assoc, List.replicate_append_replicate, Nat.div_add_mod]

theorem replicate_quote_succ (n : Nat) (rest : Bytes) :
    List.replicate (3 * (n + 1)) quote ++ rest = delim ++ (List.replicate (3 * n) quote ++ rest) := by
  rw [Nat.mul_succ, Nat.add_comm, ← List.replicate_append_replicate, List.append_assoc]
  rfl

/-! ## Empty spans -/

/-- Delimiters at the front are skipped one after another (R83). -/
theorem extractFrames_of_delimiters (n : Nat) {c : Channel} {tail : Bytes}
    (hbuf : c.rxBuf = List.replicate (3 * n) quote ++ tail) : extractFrames c = extractFrames { c with rxBuf := tail } := by
  induction n generalizing c with
  | zero =>
    have hc : c.rxBuf = tail := hbuf
    rw [← hc]
  | succ n ih =>
    rw [replicate_quote_succ] at hbuf
    have hfind : findDelim c.rxBuf = some 0 := by rw [hbuf, findDelim_delim_append]
    rw [extractFrames_some hfind, extractOne_zero, quiet_andThen,
      ih (c := { c with rxBuf := c.rxBuf.drop 3 }) (by rw [hbuf]; rfl)]

/-- The same as operations: EXTRACT_ONE at 0 again and again, which EXTRACT_FRAMES would do as well (R83, R84). -/
theorem execAll_of_delimiters (n : Nat) {s : State} {tail : Bytes} (halive : s.chan.alive = true)
    (harmed : s.chan.armed = true) (hbuf : s.chan.rxBuf = List.replicate (3 * n) quote ++ tail) :
    ∃ t, execAll (List.replicate n (.extractOne 0)) s = .next t ∧ t.chan.rxBuf = tail ∧
      exec .extractFrames s = exec .extractFrames t := by
  induction n generalizing s with
  | zero => exact ⟨s, rfl, hbuf, rfl⟩
  | succ n ih =>
    rw [replicate_quote_succ] at hbuf
    have hfind : findDelim s.chan.rxBuf = some 0 := by rw [hbuf, findDelim_delim_append]
    have hone := receives_extractOne 0 s.chan
    obtain ⟨t, hrun, htail, hframes⟩ := ih (s := s.commit (extractOne 0 s.chan) .none) (hone.alive.trans halive)
      (hone.armed.trans harmed) (by rw [commit_chan, extractOne_rxBuf, hbuf]; rfl)
    refine ⟨t, ?_, htail, (exec_extractFrames_turn halive harmed hfind).trans hframes⟩
    rw [List.replicate_succ, execAll_cons_of_next (exec_extractOne_of_armed halive harmed (Nat.zero_le _)), hrun]

/-! ## Induction over an extraction -/

/-- What holds when there is nothing to extract, and carries over from what is left after one span, holds of every extraction
(R84). -/
theorem extractFrames_induction {P : Channel → Effect → Prop}
    (hdone : ∀ c, findDelim c.rxBuf = none → P c (quiet c))
    (hturn : ∀ c k, findDelim c.rxBuf = some k → P (extractOne k c).chan (extractFrames (extractOne k c).chan) →
      P c ((extractOne k c).andThen extractFrames)) (c : Channel) : P c (extractFrames c) := by
  induction hn : c.rxBuf.length using Nat.strong_induction_on generalizing c with
  | _ n ih =>
    cases hfind : findDelim c.rxBuf with
    | none =>
      rw [extractFrames_none c hfind]
      exact hdone c hfind
    | some k =>
      have hle := findDelim_le hfind
      rw [extractFrames_some hfind]
      refine hturn c k hfind (ih _ ?_ _ rfl)
      rw [extractOne_rxBuf, List.length_drop]
      omega

/-! ## Bytes that arrive later -/

theorem andThen_congr {e : Effect} {f g : Channel → Effect} (h : f e.chan = g e.chan) : e.andThen f = e.andThen g := by
  rw [Effect.andThen, Effect.andThen, h]

/-- What a span does is the same whether more bytes have arrived behind it or arrive afterwards. -/
theorem rxFrame_rxAppend (f more : Bytes) (c : Channel) :
    rxFrame f (rxAppend more c).chan = (rxFrame f c).andThen (rxAppend more) := by
  by_cases hf : f = [hsByte]
  · subst hf
    rw [rxFrame_handshake, rxFrame_handshake]
    exact effect_ext rfl (List.append_nil _).symm rfl
  · cases hwaiting : c.waitingForStartFrame with
    | true => rw [rxFrame_of_waiting hf hwaiting, rxFrame_of_waiting hf (by exact hwaiting), quiet_andThen]; rfl
    | false =>
      rw [rxFrame_of_not_waiting hf hwaiting, rxFrame_of_not_waiting hf (by exact hwaiting)]
      cases hdecode : decodeData f with
      | deliver msg => rw [rxData_of_deliver hdecode, rxData_of_deliver hdecode]; rfl
      | dropBadChecksum => rw [rxData_of_dropBadChecksum hdecode, rxData_of_dropBadChecksum hdecode]; rfl
      | dropSilent => rw [rxData_of_dropSilent hdecode, rxData_of_dropSilent hdecode]; rfl

theorem extractOne_rxAppend {k : Nat} {c : Channel} (hk : k + 3 ≤ c.rxBuf.length) (more : Bytes) :
    extractOne k (rxAppend more c).chan = (extractOne k c).andThen (rxAppend more) := by
  have hdrop : (c.rxBuf ++ more).drop (k + 3) = c.rxBuf.drop (k + 3) ++ more := List.drop_append_of_le_length hk
  by_cases hzero : k = 0
  · subst hzero
    rw [extractOne_zero, extractOne_zero, quiet_andThen]
    exact congrArg (fun buf => quiet { c with rxBuf := buf }) hdrop
  · have htake : (rxAppend more c).chan.rxBuf.take k = c.rxBuf.take k := List.take_append_of_le_length (by omega)
    rw [extractOne_of_ne_zero hzero, extractOne_of_ne_zero hzero, htake, rxFrame_rxAppend, andThen_assoc, andThen_assoc]
    exact andThen_congr (effect_ext (by simp [hdrop]) rfl rfl)

/-- Extracting and then appending, and extracting again, is extracting once from all of it (R87). -/
theorem extractFrames_rxAppend (more : Bytes) (c : Channel) :
    extractFrames (rxAppend more c).chan = (extractFrames c).andThen fun c' => (rxAppend more c').andThen extractFrames := by
  refine extractFrames_induction (P := fun c e =>
    extractFrames (rxAppend more c).chan = e.andThen fun c' => (rxAppend more c').andThen extractFrames) ?_ ?_ c
  · intro c _
    rw [quiet_andThen]
    exact (quiet_andThen _ _).symm
  · intro c k hfind ih
    have hlater : findDelim (rxAppend more c).chan.rxBuf = some k := findDelim_append hfind more
    rw [extractFrames_some hlater, extractOne_rxAppend (findDelim_le hfind), andThen_assoc, andThen_assoc]
    exact andThen_congr ((quiet_andThen _ _).trans ih)

/-! ## Chunks -/

theorem receiveChunks_cons (chunk : Bytes) (rest : List Bytes) (c : Channel) :
    receiveChunks (chunk :: rest) c = ((rxAppend chunk c).andThen extractFrames).andThen (receiveChunks rest) := rfl

theorem receiveChunks_singleton (chunk : Bytes) (c : Channel) :
    receiveChunks [chunk] c = (rxAppend chunk c).andThen extractFrames := by
  rw [receiveChunks_cons]
  exact andThen_quiet _

/-- Chunk after chunk is the same as all bytes at once (R87). -/
theorem receiveChunks_eq_flatten {chunks : List Bytes} (hne : chunks ≠ []) (c : Channel) :
    receiveChunks chunks c = (rxAppend chunks.flatten c).andThen extractFrames := by
  induction chunks generalizing c with
  | nil => exact absurd rfl hne
  | cons chunk rest ih =>
    cases rest with
    | nil => rw [receiveChunks_singleton, List.flatten_singleton]
    | cons next rest =>
      have hflat : (rxAppend (chunk :: next :: rest).flatten c).chan =
          (rxAppend (next :: rest).flatten (rxAppend chunk c).chan).chan := by
        simp only [rxAppend_chan, List.flatten_cons, List.append_assoc]
      calc receiveChunks (chunk :: next :: rest) c
          = (extractFrames (rxAppend chunk c).chan).andThen (receiveChunks (next :: rest)) := by
            rw [receiveChunks_cons, rxAppend, quiet_andThen]; rfl
        _ = (extractFrames (rxAppend chunk c).chan).andThen fun c' =>
              (rxAppend (next :: rest).flatten c').andThen extractFrames := andThen_congr (ih (by simp) _)
        _ = extractFrames (rxAppend (next :: rest).flatten (rxAppend chunk c).chan).chan :=
            (extractFrames_rxAppend _ _).symm
        _ = (rxAppend (chunk :: next :: rest).flatten c).andThen extractFrames := by
            rw [← hflat]; exact (quiet_andThen _ _).symm

theorem receives_receiveChunks (chunks : List Bytes) (c : Channel) : Receives c (receiveChunks chunks c) := by
  induction chunks generalizing c with
  | nil => exact receives_quiet c
  | cons chunk rest ih =>
    exact receives_andThen (receives_andThen (receives_rxBuf c _) (receives_extractFrames _)) (ih _)

/-- FEED of one chunk after which POST_RX changes nothing (R73, R87). -/
theorem exec_feed_of_postRx_quiet {s : State} (halive : s.chan.alive = true) (harmed : s.chan.armed = true) {chunk : Bytes}
    (hchunk : chunk ≠ [])
    (hquiet : postRx (receiveChunks [chunk] s.chan).chan = quiet (receiveChunks [chunk] s.chan).chan) :
    exec (feed chunk) s = .next (s.commit (receiveChunks [chunk] s.chan) .none) := by
  rw [receiveChunks_singleton] at hquiet ⊢
  rw [exec_feed_of_armed halive harmed, receivePhase, if_neg hchunk, andThen_congr hquiet, andThen_quiet]

/-- The chunks fed one by one, as long as POST_RX changes nothing (R87). -/
theorem execAll_feed {chunks : List Bytes} (hne : chunks ≠ []) {s : State} (halive : s.chan.alive = true)
    (harmed : s.chan.armed = true) (hchunks : ∀ chunk ∈ chunks, chunk ≠ [])
    (hquiet : ∀ n, n < chunks.length →
      postRx (receiveChunks (chunks.take (n + 1)) s.chan).chan = quiet (receiveChunks (chunks.take (n + 1)) s.chan).chan) :
    execAll (chunks.map feed) s = .next (s.commit (receiveChunks chunks s.chan) .none) := by
  induction chunks generalizing s with
  | nil => exact absurd rfl hne
  | cons chunk rest ih =>
    have hfirst : exec (feed chunk) s = .next (s.commit (receiveChunks [chunk] s.chan) .none) :=
      exec_feed_of_postRx_quiet halive harmed (hchunks chunk List.mem_cons_self) (hquiet 0 (by simp))
    cases rest with
    | nil => rw [List.map_singleton, execAll_singleton, hfirst]
    | cons next rest =>
      have hkeeps := receives_receiveChunks [chunk] s.chan
      have hsplit (later : List Bytes) :
          receiveChunks (chunk :: later) s.chan = (receiveChunks [chunk] s.chan).andThen (receiveChunks later) := by
        rw [receiveChunks_cons, receiveChunks_singleton]
      rw [List.map_cons, execAll_cons_of_next hfirst, ih (by simp) (hkeeps.alive.trans halive) (hkeeps.armed.trans harmed)
        (fun c hc => hchunks c (List.mem_cons_of_mem _ hc)) ?_, commit_chan, commit_commit, ← hsplit]
      intro n hn
      have := hquiet (n + 1) (by simpa using hn)
      rwa [List.take_succ_cons, hsplit] at this

/-! ## The obligations -/

/-- Settles O19: the span is closed by the first delimiter of the run, and the others close empty spans. -/
theorem quoteRunsAreCutGreedily : Obligations.QuoteRunsAreCutGreedily := by
  intro s pre rest q halive harmed hnone hlast hrest hbuf
  refine ⟨fun hq j hj => ?_, fun hq => ?_, ?_⟩
  · rw [hbuf]
    exact not_delimAt_short_run hnone hlast hrest hq hj
  · obtain ⟨n, hn⟩ : ∃ n, q / 3 = n + 1 := ⟨q / 3 - 1, by omega⟩
    have hrun : s.chan.rxBuf = pre ++ (delim ++ (List.replicate (3 * n) quote ++ (List.replicate (q % 3) quote ++ rest))) := by
      rw [hbuf, List.append_assoc, ← replicate_quote_succ, ← hn]
      exact congrArg (pre ++ ·) (replicate_quote_eq q rest)
    have hfind : findDelim s.chan.rxBuf = some pre.length := by rw [hrun, findDelim_span hnone hlast]
    have hinside : pre.length ≤ s.chan.rxBuf.length := by have := findDelim_le hfind; omega
    have hone := receives_extractOne pre.length s.chan
    obtain ⟨t, hall, htail, hframes⟩ := execAll_of_delimiters n (s := s.commit (extractOne pre.length s.chan) .none)
      (hone.alive.trans halive) (hone.armed.trans harmed)
      (by rw [commit_chan, extractOne_rxBuf, hrun, ← List.append_assoc]; exact List.drop_left' List.length_append)
    refine ⟨t, ?_, htail, (exec_extractFrames_turn halive harmed hfind).trans hframes⟩
    rw [hn, Nat.add_sub_cancel, execAll_cons_of_next (exec_extractOne_of_armed halive harmed hinside), hall]
  · rintro rfl hshort
    have hrun : s.chan.rxBuf = List.replicate (3 * (q / 3)) quote ++ (List.replicate (q % 3) quote ++ rest) := by
      rw [hbuf, List.nil_append]
      exact replicate_quote_eq q rest
    have hleft : noDelim (List.replicate (q % 3) quote ++ rest) :=
      noDelim_of_short_run hrest (Nat.mod_lt _ (by decide)) hshort
    rw [exec_extractFrames_of_armed halive harmed, extractFrames_of_delimiters _ hrun,
      extractFrames_none _ (findDelim_eq_none.mpr hleft)]
    simp [State.commit]

/-- Settles O20: a delimiter that the byte makes ends with it, so what stands in front of the byte ends in two quotes. -/
theorem streamingDetectorFiresOnTheThirdQuote : Obligations.StreamingDetectorFiresOnTheThirdQuote := by
  intro buf b hnone
  split
  · next hfires =>
    obtain ⟨rfl, front, rfl⟩ := hfires
    refine findDelim_eq_some.mpr ⟨delimAt_iff_append.mpr ⟨front, [], by simp, by simp⟩, fun j hj hdelim => hnone j ?_⟩
    rw [List.length_append, List.length_cons, List.length_cons, List.length_nil] at hj
    refine (delimAt_append_left [quote] ?_).mp hdelim
    rw [List.length_append, List.length_cons, List.length_cons, List.length_nil]
    omega
  · next hquiet =>
    refine findDelim_eq_none.mpr fun i hdelim => ?_
    obtain ⟨front, back, hbuf, rfl⟩ := delimAt_iff_append.mp hdelim
    rcases List.eq_nil_or_concat back with rfl | ⟨init, last, rfl⟩
    · have hsplit : buf ++ [b] = (front ++ [quote, quote]) ++ [quote] := by rw [hbuf]; simp
      obtain ⟨hfront, hb⟩ := List.append_inj' hsplit rfl
      exact hquiet ⟨List.singleton_inj.mp hb, front, hfront.symm⟩
    · have hsplit : buf ++ [b] = (front ++ delim ++ init) ++ [last] := by rw [hbuf]; simp
      obtain ⟨hfront, _⟩ := List.append_inj' hsplit rfl
      exact hnone _ (delimAt_iff_append.mpr ⟨front, init, hfront, rfl⟩)

/-- Settles O21: without POST_RX a DISPATCH appends and extracts, and that does not depend on the cuts
(`receiveChunks_eq_flatten`). -/
theorem receptionIgnoresChunking : Obligations.ReceptionIgnoresChunking := by
  intro s chunks halive harmed hne hchunks hquiet
  have hflat : chunks.flatten ≠ [] := by
    obtain ⟨chunk, hmem⟩ := List.exists_mem_of_ne_nil chunks hne
    exact fun h => hchunks chunk hmem (List.flatten_eq_nil_iff.mp h chunk hmem)
  have hlen : 0 < chunks.length := List.length_pos_of_ne_nil hne
  have hlast := hquiet (chunks.length - 1) (by omega)
  rw [Nat.sub_add_cancel hlen, List.take_length] at hlast
  have hwhole : receiveChunks [chunks.flatten] s.chan = receiveChunks chunks s.chan := by
    rw [receiveChunks_singleton, receiveChunks_eq_flatten hne]
  rw [execAll_feed hne halive harmed hchunks hquiet,
    exec_feed_of_postRx_quiet halive harmed hflat (by rw [hwhole]; exact hlast), hwhole]

end Sys2Proof.Machine
end

section
/-! PROOFS. The round trip (43_frame_encoder.md R119), the end-to-end scenario (44_channel_fsm.md R140), and the literals of a script
line (30_encoding.md R72). -/

namespace Sys2Proof.Machine

open Sys2Proof.Config

/-! ## What is received -/

/-- A delivered message is the front of the span it comes from, up to and with its last `}` (R64, R97). -/
theorem message_of_decodeData {f msg : Bytes} (h : decodeData f = .deliver msg) :
    msg <+: f ∧ msg.getLast? = some rbrace := by
  have hne := decodeData_deliver_ne_nil h
  obtain ⟨rfl, _⟩ := decodeDataWith_deliver h
  exact ⟨List.take_prefix _ _, (splitMeta_spec f).1 hne⟩

/-- Only a data span raises a frame, and the frame is its message (R124, R125). -/
theorem decodeData_of_frameReceived_mem {f msg : Bytes} {c : Channel} (h : Event.frameReceived msg ∈ (rxFrame f c).trace) :
    decodeData f = .deliver msg := by
  by_cases hf : f = [hsByte]
  · subst hf
    rw [rxFrame_handshake, rxHandshake_trace] at h
    cases hconnected : c.connected <;> simp [hconnected] at h
  cases hwaiting : c.waitingForStartFrame with
  | true =>
    rw [rxFrame_of_waiting hf hwaiting] at h
    cases h
  | false =>
    rw [rxFrame_of_not_waiting hf hwaiting] at h
    cases hdecode : decodeData f with
    | deliver msg' =>
      rw [rxData_of_deliver hdecode, emit_trace, List.mem_singleton] at h
      cases h
      rfl
    | dropBadChecksum =>
      rw [rxData_of_dropBadChecksum hdecode] at h
      simp at h
    | dropSilent =>
      rw [rxData_of_dropSilent hdecode] at h
      cases h

theorem noDelim_left {front back : Bytes} (h : noDelim (front ++ back)) : noDelim front := fun i hdelim =>
  h i ((delimAt_append_left back (delimAt_lt hdelim)).mpr hdelim)

theorem noDelim_of_front {msg f : Bytes} (hfront : msg <+: f) (h : noDelim f) : noDelim msg := by
  obtain ⟨back, rfl⟩ := hfront
  exact noDelim_left h

/-- The span in front of the leftmost delimiter holds none (R57). -/
theorem noDelim_take_findDelim {buf : Bytes} {k : Nat} (h : findDelim buf = some k) : noDelim (buf.take k) := by
  intro i hdelim
  have hle := delimAt_lt hdelim
  rw [List.length_take] at hle
  refine (findDelim_eq_some.mp h).2 i (by omega) ?_
  rw [← List.take_append_drop k buf]
  exact (delimAt_append_left _ (delimAt_lt hdelim)).mpr hdelim

/-- No message that an extraction delivers holds a delimiter, and each ends with `}` (R97). -/
theorem message_of_extractFrames {c : Channel} {msg : Bytes} (h : Event.frameReceived msg ∈ (extractFrames c).trace) :
    noDelim msg ∧ msg.getLast? = some rbrace := by
  revert h
  refine extractFrames_induction
    (P := fun _ e => Event.frameReceived msg ∈ e.trace → noDelim msg ∧ msg.getLast? = some rbrace) ?_ ?_ c
  · intro c _ h
    cases h
  · intro c k hfind ih h
    rw [andThen_trace, List.mem_append] at h
    rcases h with h | h
    · by_cases hk : k = 0
      · subst hk
        cases h
      · rw [extractOne_of_ne_zero hk, andThen_trace, consumeRx_trace, List.append_nil] at h
        obtain ⟨hfront, hlast⟩ := message_of_decodeData (decodeData_of_frameReceived_mem h)
        exact ⟨noDelim_of_front hfront (noDelim_take_findDelim hfind), hlast⟩
    · exact ih h

theorem mem_of_received_eq {trace : List Event} {msg : Bytes} (h : received trace = [msg]) : Event.frameReceived msg ∈ trace := by
  have hmem : msg ∈ received trace := by rw [h]; exact List.mem_singleton_self msg
  obtain ⟨e, he, hmsg⟩ := List.mem_filterMap.mp hmem
  cases e <;> cases hmsg
  exact he

/-- POST_RX delivers nothing. -/
theorem received_postRx (c : Channel) : received (postRx c).trace = [] := by
  obtain ⟨_, _, _, h⟩ := postRx_spec c
  refine received_eq_nil fun e he msg hmsg => ?_
  rw [mem_oversize h he] at hmsg
  cases hmsg

/-- A DISPATCH with input delivers what the extraction of all the bytes held delivers. -/
theorem received_receivePhase {rx : Bytes} (hrx : rx ≠ []) (c : Channel) :
    received (receivePhase rx c).trace = received (extractFrames { c with rxBuf := c.rxBuf ++ rx }).trace := by
  rcases receivePhase_cases rx c with ⟨h, _⟩ | ⟨_, h⟩
  · exact absurd h hrx
  · rw [h, andThen_trace, received_append, received_postRx, List.append_nil]

/-! ## A frame as it was encoded -/

theorem quote_ne_hexChar : ∀ d : BitVec 4, quote ≠ hexChar d := by decide

theorem rbrace_ne_hexChar : ∀ d : BitVec 4, rbrace ≠ hexChar d := by decide

theorem quote_not_mem_hex8 (v : Word32) : quote ∉ hex8 v := fun h => by
  obtain ⟨d, hd⟩ := mem_hex8 h
  exact quote_ne_hexChar d hd

theorem rbrace_not_mem_hex8 (v : Word32) : rbrace ∉ hex8 v := fun h => by
  obtain ⟨d, hd⟩ := mem_hex8 h
  exact rbrace_ne_hexChar d hd

/-- Bytes without a quote behind a span make no delimiter. -/
theorem noDelim_append_of_no_quote {front back : Bytes} (hfront : noDelim front) (hback : quote ∉ back) :
    noDelim (front ++ back) := by
  intro i hdelim
  have hle := delimAt_lt hdelim
  rw [List.length_append] at hle
  by_cases hinside : i + 3 ≤ front.length
  · exact hfront i ((delimAt_append_left back hinside).mp hdelim)
  · have hquote := quote_of_delimAt hdelim (i + 2) (by omega) le_rfl
    rw [List.getElem?_append_right (by omega)] at hquote
    exact hback (List.mem_of_getElem? hquote)

/-- A payload on its domain, with the digits of its checksum, is delivered as it was sent (R96, R119). -/
theorem decodeData_encoded {payload : Bytes} (hlast : payload.getLast? = some rbrace) :
    decodeData (payload ++ hex8 (crcFn payload)) = .deliver payload := by
  have h := decodeData_of_digits (rest := []) hlast (by rw [List.append_nil]; exact rbrace_not_mem_hex8 _)
    (hex8_length (crcFn payload)) (hexParse8_hex8 (crcFn payload))
  rwa [List.append_nil, if_pos rfl] at h

theorem encoded_ne_handshake (payload : Bytes) : payload ++ hex8 (crcFn payload) ≠ [hsByte] := by
  intro h
  have := congrArg List.length h
  simp at this

/-- A whole span at the front is handled, and extraction goes on behind its delimiter (R82, R84). -/
theorem extractFrames_span {f back : Bytes} {c : Channel} (hf : f ≠ []) (hnone : noDelim f) (hlast : f.getLast? ≠ some quote)
    (hbuf : c.rxBuf = f ++ (delim ++ back)) :
    extractFrames c = (rxFrame f c).andThen fun c' => extractFrames { c' with rxBuf := back } := by
  have hfind : findDelim c.rxBuf = some f.length := by rw [hbuf, findDelim_span hnone hlast]
  have htake : c.rxBuf.take f.length = f := by rw [hbuf, List.take_left]
  have hdrop : (rxFrame f c).chan.rxBuf.drop (f.length + 3) = back := by
    rw [rxFrame_rxBuf, hbuf, ← List.append_assoc]
    exact List.drop_left' List.length_append
  rw [extractFrames_some hfind, extractOne_of_ne_zero (fun h => hf (List.length_eq_zero_iff.mp h)), htake, andThen_assoc]
  refine andThen_congr ((quiet_andThen _ _).trans ?_)
  rw [consume, hdrop]

/-- With nothing held there is nothing to extract. -/
theorem extractFrames_of_empty (c : Channel) : extractFrames { c with rxBuf := [] } = quiet { c with rxBuf := [] } :=
  extractFrames_none _ rfl

/-- Extracting the span of an encoded payload, with nothing behind its delimiter, delivers the payload (R119). -/
theorem extractFrames_encoded {payload : Bytes} {c : Channel} (hopen : c.waitingForStartFrame = false)
    (hbuf : c.rxBuf = payload ++ hex8 (crcFn payload) ++ delim) (hnone : noDelim payload)
    (hlast : payload.getLast? = some rbrace) :
    extractFrames c = emit (.frameReceived payload) { c with rxBuf := [] } := by
  have hspan : noDelim (payload ++ hex8 (crcFn payload)) := noDelim_append_of_no_quote hnone (quote_not_mem_hex8 _)
  have hend : (payload ++ hex8 (crcFn payload)).getLast? ≠ some quote := by
    rw [List.getLast?_append_of_ne_nil _ (by rw [hex8_eq]; simp)]
    exact fun h => quote_not_mem_hex8 _ (List.mem_of_getLast? h)
  rw [extractFrames_span (by rw [hex8_eq]; simp) hspan hend (back := []) (by rw [hbuf, List.append_nil]),
    rxFrame_of_not_waiting (encoded_ne_handshake payload) hopen, rxData_of_deliver (decodeData_encoded hlast)]
  simp only [extractFrames_of_empty]
  rfl

/-- The opening delimiter of a frame closes an empty span (R83). -/
theorem extractFrames_encodeFrame {payload : Bytes} {c : Channel} (hbuf : c.rxBuf = encodeFrame payload) :
    extractFrames c = extractFrames { c with rxBuf := payload ++ hex8 (crcFn payload) ++ delim } := by
  refine extractFrames_of_delimiters 1 ?_
  rw [hbuf, encodeFrame, List.append_assoc, List.append_assoc, ← List.append_assoc payload]
  rfl

/-! ## The scenario of the source -/

/-- The message of the scenario (R140). -/
def scenarioMsg : Bytes := [0x7B#8, 0x22#8, 0x69#8, 0x64#8, 0x22#8, 0x3A#8, 0x31#8, 0x7D#8]

/-- The span of the scenario: the message, and eight zeros that are not its checksum. -/
def scenarioSpan : Bytes := scenarioMsg ++ List.replicate 8 0x30#8

theorem decodeData_scenario : decodeData scenarioSpan = .dropBadChecksum := by decide +kernel

theorem postRx_of_empty {c : Channel} (h : c.rxBuf = []) : postRx c = quiet c := by
  rcases postRx_cases c with ⟨hlong, _⟩ | ⟨_, _, hlong, _⟩ | ⟨_, _, hquiet⟩
  · simp [h] at hlong
  · simp [h] at hlong
  · exact hquiet

/-- The span of the scenario behind its delimiter: a warning, and no frame (R101, R140). -/
theorem extractFrames_wrongChecksum {c : Channel} (hopen : c.waitingForStartFrame = false)
    (hbuf : c.rxBuf = delim ++ (scenarioSpan ++ delim)) :
    extractFrames c = raise .checksumMismatch { c with rxBuf := [] } := by
  rw [extractFrames_of_delimiters 1 (tail := scenarioSpan ++ (delim ++ [])) (by rw [hbuf]; rfl),
    extractFrames_span (by decide) (findDelim_eq_none.mp (by decide)) (by decide) rfl,
    rxFrame_of_not_waiting (by decide) (by exact hopen), rxData_of_dropBadChecksum decodeData_scenario]
  simp only [extractFrames_of_empty]
  rfl

/-- A handshake and then the span with the wrong checksum, on a Channel that is not connected and idle (R140). -/
theorem extractFrames_scenario {c : Channel} (hconnected : c.connected = false) (hidle : c.sending = false)
    (hbuf : c.rxBuf = encodeHandshake ++ (delim ++ (scenarioSpan ++ delim))) :
    extractFrames c =
      { chan := { c with
          waitingForStartFrame := false, connected := true, sending := true, rxBuf := []
          txBuf := c.txBuf ++ encodeHandshake }
        trace := [.opened, .diagWarnChecksum]
        errors := [.checksumMismatch] } := by
  rw [extractFrames_of_delimiters 1 (tail := [hsByte] ++ (delim ++ (delim ++ (scenarioSpan ++ delim)))) (by rw [hbuf]; rfl),
    extractFrames_span (f := [hsByte]) (by decide) (findDelim_eq_none.mp (by decide)) (by decide) rfl, rxFrame_handshake]
  refine (andThen_congr (g := fun c' => raise .checksumMismatch { c' with rxBuf := [] }) ?_).trans (effect_ext ?_ ?_ rfl)
  · exact extractFrames_wrongChecksum rfl rfl
  · simp [rxHandshake, rxHandshakeWith, replyDue, hidle, memWrite]
  · simp [hconnected]

/-! ## Literals -/

theorem hexDigit_hexChar (d : BitVec 4) : hexDigit (hexChar d) = some d.toNat := by
  rw [hexDigit_eq_hexValue, hexValue_hexChar]

theorem byte_of_nibbles : ∀ b : Byte,
    BitVec.ofNat 8 (16 * (b.extractLsb' 4 4).toNat + (b.extractLsb' 0 4).toNat) = b := by decide +kernel

/-- A plain byte is neither the closing `'` nor the escape (R72). -/
theorem isPlain_iff (b : Byte) :
    isPlain b = true ↔ 0x20 ≤ b.toNat ∧ b.toNat ≤ 0x7E ∧ b ≠ 0x27#8 ∧ b ≠ 0x5C#8 := by
  simp [isPlain, and_assoc]

/-- The closing `'` ends a literal (R72). -/
theorem readLiteral_close (rest : Bytes) : readLiteral (0x27#8 :: rest) = some ([], rest) := by
  rw [readLiteral.eq_def]
  rfl

theorem readLiteral_plain {b : Byte} (hb : isPlain b = true) {text bs after : Bytes}
    (h : readLiteral text = some (bs, after)) : readLiteral (b :: text) = some (b :: bs, after) := by
  obtain ⟨_, _, hclose, hescape⟩ := (isPlain_iff b).mp hb
  rw [readLiteral.eq_def]
  simp only [if_neg hclose, if_neg hescape, if_pos hb, h]

theorem readLiteral_escape (hi lo : BitVec 4) {text bs after : Bytes} (h : readLiteral text = some (bs, after)) :
    readLiteral (0x5C#8 :: 0x78#8 :: hexChar hi :: hexChar lo :: text) =
      some (BitVec.ofNat 8 (16 * hi.toNat + lo.toNat) :: bs, after) := by
  rw [readLiteral.eq_def]
  simp [hexDigit_hexChar, h]

/-- One byte of a literal is read as that byte, and reading goes on behind it (R72). -/
theorem readLiteral_literalByte (b : Byte) {text bs after : Bytes} (h : readLiteral text = some (bs, after)) :
    readLiteral (literalByte b ++ text) = some (b :: bs, after) := by
  by_cases hplain : isPlain b = true
  · rw [literalByte, if_pos hplain]
    exact readLiteral_plain hplain h
  · have hescape := readLiteral_escape (b.extractLsb' 4 4) (b.extractLsb' 0 4) h
    rw [byte_of_nibbles] at hescape
    rw [literalByte, if_neg hplain]
    exact hescape

/-- The bytes of a literal are read back up to its closing `'` (R72). -/
theorem readLiteral_flatMap (bs rest : Bytes) :
    readLiteral (bs.flatMap literalByte ++ (0x27#8 :: rest)) = some (bs, rest) := by
  induction bs with
  | nil => exact readLiteral_close rest
  | cons b bs ih =>
    rw [List.flatMap_cons, List.append_assoc]
    exact readLiteral_literalByte b ih

/-! ## The obligations -/

/-- Settles O32: on the domain the span is delivered whole; off it no message can be the payload, since messages hold no delimiter and
end with `}`. -/
theorem roundTripHoldsExactlyOnItsDomain : Obligations.RoundTripHoldsExactlyOnItsDomain := by
  intro s payload halive harmed hopen hempty
  have hne : encodeFrame payload ≠ [] := List.ne_nil_of_length_pos (by rw [encodeFrame_length]; omega)
  refine ⟨_, exec_feed_of_armed halive harmed _, ?_⟩
  rw [emitted_commit, received_receivePhase hne, hempty, List.nil_append]
  constructor
  · intro h
    exact message_of_extractFrames (mem_of_received_eq h)
  · rintro ⟨hnone, hlast⟩
    rw [extractFrames_encodeFrame rfl, extractFrames_encoded (by exact hopen) rfl hnone hlast]
    rfl

/-- Settles O47: `extractFrames_scenario`, and nothing is left for POST_RX. -/
theorem endToEndScenarioOfTheSource : Obligations.EndToEndScenarioOfTheSource := by
  intro s halive harmed _ hconnected hidle hrx htx
  refine (exec_feed_of_armed halive harmed (encodeHandshake ++ (delim ++ (scenarioSpan ++ delim)))).trans ?_
  have hreceive : receivePhase (encodeHandshake ++ (delim ++ (scenarioSpan ++ delim))) s.chan =
      extractFrames { s.chan with rxBuf := encodeHandshake ++ (delim ++ (scenarioSpan ++ delim)) } := by
    rcases receivePhase_cases (encodeHandshake ++ (delim ++ (scenarioSpan ++ delim))) s.chan with ⟨h, _⟩ | ⟨_, h⟩
    · cases h
    · rw [h, hrx, List.nil_append]
      have hscenario := extractFrames_scenario (c := { s.chan with rxBuf := encodeHandshake ++ (delim ++ (scenarioSpan ++ delim)) })
        hconnected hidle rfl
      rw [andThen_congr (g := quiet) (postRx_of_empty (by rw [hscenario])), andThen_quiet]
  rw [hreceive, extractFrames_scenario (by exact hconnected) (by exact hidle) rfl]
  simp [State.commit, htx, hrx, encodeHandshake_bytes]

/-- Settles O60: the literal opens with its `'`, and is then read back byte by byte. -/
theorem scriptLiteralsAreReadBack : Obligations.ScriptLiteralsAreReadBack := by
  intro bs rest
  have hopen : readWord [0x27#8] (writeLiteral bs ++ rest) = some (bs.flatMap literalByte ++ (0x27#8 :: rest)) := by
    simp [readWord, writeLiteral]
  rw [readBytes, hopen]
  exact readLiteral_flatMap bs rest

end Sys2Proof.Machine
end

section
/-! PROOFS. What every instruction can do to the Channel, said once (`Did`, `exec_did`): the rules about the whole machine are read off
it. -/

namespace Sys2Proof.Machine

open Sys2Proof.Config

/-! ## Handling spans -/

/-- What handling spans can do to the flags and to `tx_buf`, and how often it raises OPEN: `Receives` without its clause on the other
events, since a receive phase can raise the OVERSIZE diagnostic as well (R126). -/
structure Handles (c : Channel) (e : Effect) : Prop where
  waitFor : e.chan.waitForStartFrame = c.waitForStartFrame
  maxFrame : e.chan.maxFrameSize = c.maxFrameSize
  userFrame : e.chan.sendingUserFrame = c.sendingUserFrame
  resume : e.chan.resumeUart = c.resumeUart
  armed : e.chan.armed = c.armed
  alive : e.chan.alive = c.alive
  session :
    (e.chan.connected = c.connected ∧ e.chan.waitingForStartFrame = c.waitingForStartFrame ∧ e.chan.sending = c.sending ∧
      e.chan.txBuf = c.txBuf ∧ e.trace.count .opened = 0) ∨
    (e.chan.connected = true ∧ e.chan.waitingForStartFrame = false ∧ e.chan.sending = true ∧
      e.chan.txBuf = (if c.sending = true then c.txBuf else c.txBuf ++ encodeHandshake) ∧
      e.trace.count .opened = (if c.connected = true then 0 else 1))

theorem Receives.handles {c : Channel} {e : Effect} (h : Receives c e) : Handles c e :=
  ⟨h.waitFor, h.maxFrame, h.userFrame, h.resume, h.armed, h.alive, h.session⟩

theorem handles_receivePhase (rx : Bytes) (c : Channel) : Handles c (receivePhase rx c) := by
  obtain ⟨spans, oversize, hspans, hchan, htrace, hoversize⟩ := receivePhase_spec rx c
  have hcount : (receivePhase rx c).trace.count .opened = spans.trace.count .opened := by
    rw [htrace, List.count_append, Nat.add_eq_left]
    exact List.count_eq_zero.mpr fun he => Event.noConfusion (mem_oversize hoversize he)
  constructor <;> rw [hchan]
  · exact hspans.waitFor
  · exact hspans.maxFrame
  · exact hspans.userFrame
  · exact hspans.resume
  · exact hspans.armed
  · exact hspans.alive
  · rw [hcount]
    exact hspans.session

/-- Handling spans never disconnects (R135). -/
theorem Handles.connected_of_connected {c : Channel} {e : Effect} (h : Handles c e) (hc : c.connected = true) :
    e.chan.connected = true := by
  rcases h.session with ⟨h, _⟩ | ⟨h, _⟩
  · exact h.trans hc
  · exact h

/-- Handling spans that connects ends the wait and raises OPEN (R19, R128, R193). -/
theorem Handles.opened_of_connects {c : Channel} {e : Effect} (h : Handles c e) (hc : c.connected = false)
    (he : e.chan.connected = true) : Event.opened ∈ e.trace ∧ e.chan.waitingForStartFrame = false := by
  rcases h.session with ⟨hsame, _⟩ | ⟨_, hwaiting, _, _, hcount⟩
  · rw [hsame, hc] at he
    cases he
  · rw [if_neg (by simp [hc])] at hcount
    exact ⟨List.count_pos_iff.mp (by omega), hwaiting⟩

/-! ## Where a handshake comes from -/

/-- RX_DATA changes no field of the Channel (R125). -/
theorem rxData_chan (f : Bytes) (c : Channel) : (rxData f c).chan = c := by
  cases hdecode : decodeData f with
  | deliver msg => rw [rxData_of_deliver hdecode, emit_chan]
  | dropBadChecksum => rw [rxData_of_dropBadChecksum hdecode, raise_checksumMismatch_chan]
  | dropSilent => rw [rxData_of_dropSilent hdecode, quiet_chan]

/-- Only the span that is the one byte 0x04 connects (R91, R128). -/
theorem eq_handshake_of_rxFrame_connects {f : Bytes} {c : Channel} (hc : c.connected = false)
    (h : (rxFrame f c).chan.connected = true) : f = [hsByte] := by
  by_contra hf
  have hsame : (rxFrame f c).chan = c := by
    cases hwaiting : c.waitingForStartFrame with
    | true => rw [rxFrame_of_waiting hf hwaiting, quiet_chan]
    | false => rw [rxFrame_of_not_waiting hf hwaiting, rxData_chan]
  rw [hsame, hc] at h
  cases h

/-- An empty span does not connect, so the span that does is the handshake (R82, R83). -/
theorem eq_handshake_of_extractSpan_connects {f : Bytes} {k : Nat} {c : Channel} (hc : c.connected = false)
    (h : (extractSpan f k c).chan.connected = true) : f = [hsByte] := by
  by_cases hk : k = 0
  · subst hk
    exact absurd (hc.symm.trans h) (by decide)
  · rw [extractSpan_of_ne_zero f hk] at h
    exact eq_handshake_of_rxFrame_connects hc h

/-- A handshake behind a delimiter is one of the whole buffer too (R57). -/
theorem holdsHandshake_behind {buf : Bytes} (h : holdsHandshake buf) (span : Bytes) :
    holdsHandshake (span ++ delim ++ buf) := by
  obtain ⟨pre, post, rfl, hpre⟩ := h
  refine ⟨span ++ delim ++ pre, post, by simp only [List.append_assoc], .inr ?_⟩
  rcases hpre with rfl | hpre
  · rw [List.append_nil]
    exact List.suffix_append _ _
  · exact hpre.trans (List.suffix_append _ _)

/-- The buffer up to and with the leftmost delimiter, and what is left behind it. -/
theorem take_delim_drop {buf : Bytes} {k : Nat} (h : findDelim buf = some k) :
    buf.take k ++ delim ++ buf.drop (k + 3) = buf := by
  obtain ⟨front, back, hbuf, hk⟩ := delimAt_iff_append.mp (findDelim_eq_some.mp h).1
  have htake : buf.take k = front := by rw [hbuf, List.append_assoc, ← hk, List.take_left]
  have hdrop : buf.drop (k + 3) = back := by
    rw [hbuf, ← hk]
    exact List.drop_left' List.length_append
  rw [htake, hdrop, hbuf]

/-- An extraction that connects has met a handshake span in the buffer (R91, R128). -/
theorem holdsHandshake_of_extractFrames_connects {c : Channel} (hc : c.connected = false)
    (h : (extractFrames c).chan.connected = true) : holdsHandshake c.rxBuf := by
  revert hc h
  refine extractFrames_induction
    (P := fun c e => c.connected = false → e.chan.connected = true → holdsHandshake c.rxBuf) ?_ ?_ c
  · intro c _ hc h
    exact absurd (hc.symm.trans h) (by decide)
  · intro c k hfind ih hc h
    rw [← take_delim_drop hfind]
    cases hone : (extractOne k c).chan.connected with
    | true =>
      have hspan : c.rxBuf.take k = [hsByte] := eq_handshake_of_extractSpan_connects hc hone
      exact ⟨[], _, by rw [hspan]; rfl, .inl rfl⟩
    | false =>
      have hlater : holdsHandshake (extractOne k c).chan.rxBuf := ih hone h
      rw [extractOne_rxBuf] at hlater
      exact holdsHandshake_behind hlater _

/-- A receive phase that connects has met a handshake span in what was held and what arrived (R91, R128). -/
theorem holdsHandshake_of_receivePhase_connects {rx : Bytes} {c : Channel} (hc : c.connected = false)
    (h : (receivePhase rx c).chan.connected = true) : rx ≠ [] ∧ holdsHandshake (c.rxBuf ++ rx) := by
  rcases receivePhase_cases rx c with ⟨_, hphase⟩ | ⟨hrx, hphase⟩ <;> rw [hphase] at h
  · exact absurd (hc.symm.trans h) (by decide)
  · rw [andThen_chan, (postRx_spec _).1] at h
    exact ⟨hrx, holdsHandshake_of_extractFrames_connects (c := { c with rxBuf := c.rxBuf ++ rx }) hc h⟩

/-! ## What an instruction did -/

/-- The moves of R135 that handling spans makes. -/
def receiveMoves : List (FsmState × FsmState) :=
  [(.connecting, .connectedSendingReply), (.connectedIdle, .connectedSendingReply)]

/-- The moves of R135 that the transmit phase makes. -/
def drainMoves : List (FsmState × FsmState) :=
  [(.connectedSendingReply, .connectedIdle), (.connectedSendingUser, .connectedIdle)]

/-- What an instruction that completes did to the Channel, and what it emitted. -/
inductive Did (s : State) : Instr → Effect → Prop
  /-- At most `rx_buf` changed; a command changed nothing and emitted nothing. -/
  | still {i : Instr} {e : Effect} (same : e.chan = { s.chan with rxBuf := e.chan.rxBuf })
      (command : i.format = .cmd → e.chan = s.chan ∧ e.trace = []) : Did s i e
  | created (wait : Bool) (max : Nat) (dead : s.chan.alive = false) : Did s (.create wait max) (createChannel wait max)
  | connected (alive : s.chan.alive = true) (unconnected : s.chan.connected = false) :
      Did s .connect (connectChannel s.chan)
  | queued (payload : Bytes) (consoleOnLine : Bool) (alive : s.chan.alive = true) (connected : s.chan.connected = true)
      (idle : s.chan.sending = false) : Did s (.send payload consoleOnLine) (queueUserFrame payload consoleOnLine s.chan)
  | closed (alive : s.chan.alive = true) : Did s .close (closeChannel s.chan)
  | destroyed (alive : s.chan.alive = true) (unarmed : s.chan.armed = false) : Did s .destroy (destroyChannel s.chan)
  /-- Spans were handled, and nothing was transmitted. -/
  | received {i : Instr} {e : Effect} (alive : s.chan.alive = true) (armed : s.chan.armed = true) (handles : Handles s.chan e)
      (source : s.chan.connected = false → e.chan.connected = true → handshakeSource i s)
      (moves : fsmMoves i = receiveMoves) (internal : i.format ≠ .cmd) : Did s i e
  | dispatched (rx : Bytes) (avail : Nat) (taken : Option Nat) (n : Nat) (alive : s.chan.alive = true)
      (armed : s.chan.armed = true) (bound : n ≤ min (receivePhase rx s.chan).chan.txBuf.length avail) :
      Did s (.dispatch rx avail taken) ((receivePhase rx s.chan).andThen (transmitPhase avail n))
  | drained (avail taken : Nat) (bound : taken ≤ min s.chan.txBuf.length avail) :
      Did s (.txDrain avail taken) (transmitPhase avail taken s.chan)

/-- What an instruction did, in the state it left. -/
def Leaves (i : Instr) (s t : State) : Prop := ∃ e, Did s i e ∧ t.chan = e.chan ∧ t.trace = s.trace ++ e.trace

theorem leaves_of_commit {i : Instr} {s : State} {e : Effect} {r : OpResult} (h : Did s i e) : Leaves i s (s.commit e r) :=
  ⟨e, h, rfl, rfl⟩

/-- A pure operation leaves its result. -/
theorem leaves_of_answer {i : Instr} {s t : State} {r : OpResult} (h : answer s r = .next t) : Leaves i s t := by
  obtain ⟨_, rfl⟩ := answer_next.mp h
  exact ⟨quiet s.chan, .still rfl fun _ => ⟨rfl, rfl⟩, rfl, (List.append_nil _).symm⟩

/-- An event by itself leaves its event; it is no command. -/
theorem leaves_of_emitAlone {i : Instr} {s t : State} {e : Event} (hi : i.format ≠ .cmd) (h : emitAlone s e = .next t) :
    Leaves i s t := by
  obtain ⟨_, rfl⟩ := emitAlone_next.mp h
  exact ⟨emit e s.chan, .still rfl fun hcmd => absurd hcmd hi, rfl, rfl⟩

/-- An error kind by itself changes at most `rx_buf`. -/
theorem leaves_of_raise {i : Instr} {s t : State} {kind : ErrorKind} {r : OpResult} (hi : i.format ≠ .cmd)
    (h : done s (raise kind s.chan) r = .next t) : Leaves i s t := by
  rw [done_next.mp h]
  exact leaves_of_commit (.still (by cases kind <;> rfl) fun hcmd => absurd hcmd hi)

/-- A phase that changes at most `rx_buf`. -/
theorem leaves_of_phase {i : Instr} {s t : State} {f : Channel → Effect} (hi : i.format ≠ .cmd)
    (hsame : (f s.chan).chan = { s.chan with rxBuf := (f s.chan).chan.rxBuf }) (h : phase s f = .next t) :
    Leaves i s t := by
  obtain ⟨_, _, rfl⟩ := phase_next.mp h
  exact leaves_of_commit (.still hsame fun hcmd => absurd hcmd hi)

/-- Bytes that arrive are handled by a receive phase. -/
theorem leaves_of_arrive {i : Instr} {s t : State} {bytes : Bytes} (hi : i.format ≠ .cmd) (hmoves : fsmMoves i = receiveMoves)
    (hsource : holdsHandshake (s.chan.rxBuf ++ bytes) → handshakeSource i s) (h : arrive bytes s = .next t) :
    Leaves i s t := by
  obtain ⟨halive, harmed, rfl⟩ := arrive_next.mp h
  exact leaves_of_commit (.received halive harmed (handles_receivePhase bytes s.chan)
    (fun hc he => hsource (holdsHandshake_of_receivePhase_connects hc he).2) hmoves hi)

/-- A phase that handles spans. -/
theorem leaves_of_receives {i : Instr} {s t : State} {f : Channel → Effect} (hi : i.format ≠ .cmd)
    (hmoves : fsmMoves i = receiveMoves) (hreceives : Receives s.chan (f s.chan))
    (hsource : s.chan.connected = false → (f s.chan).chan.connected = true → handshakeSource i s)
    (h : phase s f = .next t) : Leaves i s t := by
  obtain ⟨halive, harmed, rfl⟩ := phase_next.mp h
  exact leaves_of_commit (.received halive harmed hreceives.handles hsource hmoves hi)

/-- Everything an instruction can do, one case for each row of the opcode table. -/
theorem exec_leaves {i : Instr} {s t : State} (h : exec i s = .next t) : Leaves i s t := by
  cases i with
  | delim => exact leaves_of_arrive (by decide) rfl id h
  | hsFrame => exact leaves_of_arrive (by decide) rfl id h
  | dataFrame payload => exact leaves_of_arrive nofun rfl id h
  | dataSpanRx message metadata => exact leaves_of_arrive nofun rfl id h
  | emptySpan =>
    refine leaves_of_phase (f := fun c => if findDelim c.rxBuf = some 0 then extractOne 0 c else quiet c) (by decide) ?_ h
    split <;> rfl
  | create wait max =>
    cases hdead : s.chan.alive with
    | true => rw [show exec (.create wait max) s = _ from if_pos hdead] at h; cases h
    | false =>
      rw [exec_create_of_dead hdead] at h
      cases h
      exact leaves_of_commit (.created wait max hdead)
  | connect =>
    obtain ⟨halive, h⟩ := whenAlive_next.mp h
    rw [done_next.mp h]
    cases hconnected : s.chan.connected with
    | true =>
      rw [connectChannel_of_connected hconnected]
      exact leaves_of_commit (.still rfl fun _ => ⟨rfl, rfl⟩)
    | false => exact leaves_of_commit (.connected halive hconnected)
  | send payload consoleOnLine =>
    obtain ⟨halive, h⟩ := whenAlive_next.mp h
    split at h <;> rw [done_next.mp h]
    · next hallowed =>
      obtain ⟨hconnected, hidle⟩ := (sendAllowed_iff _).mp hallowed
      exact leaves_of_commit (.queued payload consoleOnLine halive hconnected hidle)
    · exact leaves_of_commit (.still rfl fun _ => ⟨rfl, rfl⟩)
  | close =>
    obtain ⟨halive, h⟩ := whenAlive_next.mp h
    rw [done_next.mp h]
    exact leaves_of_commit (.closed halive)
  | destroy =>
    obtain ⟨halive, h⟩ := whenAlive_next.mp h
    split at h
    · cases h
    · next hunarmed =>
      rw [done_next.mp h]
      exact leaves_of_commit (.destroyed halive (by simpa using hunarmed))
  | dispatch rx avail taken =>
    obtain ⟨halive, harmed, n, hle, rfl⟩ := exec_dispatch_next h
    exact leaves_of_commit (.dispatched rx avail taken n halive harmed hle)
  | reservedCmd x => cases h
  | extractOne k =>
    obtain ⟨halive, harmed, h⟩ := whenArmed_next.mp h
    rw [doneDrawing_next.mp h]
    exact ⟨_, .received halive harmed (receives_extractSpan _ k s.chan).handles
      (fun hc he => eq_handshake_of_extractSpan_connects hc he) rfl nofun, rfl, rfl⟩
  | extractFrames =>
    exact leaves_of_receives (by decide) rfl (receives_extractFrames s.chan) holdsHandshake_of_extractFrames_connects h
  | hexParse8 digits =>
    obtain ⟨_, h⟩ := whenAlive_next.mp h
    rw [doneDrawing_next.mp h]
    exact ⟨quiet s.chan, .still rfl fun _ => ⟨rfl, rfl⟩, rfl, rfl⟩
  | rxAppend rx => exact leaves_of_phase nofun rfl h
  | rxFrame f => exact leaves_of_receives nofun rfl (receives_rxFrame f s.chan) eq_handshake_of_rxFrame_connects h
  | rxHandshake => exact leaves_of_receives (by decide) rfl (receives_rxHandshake s.chan) (fun _ _ => trivial) h
  | rxData f => exact leaves_of_phase nofun (by rw [rxData_chan]) h
  | postRx => exact leaves_of_phase (by decide) (postRx_spec s.chan).1 h
  | txDrain avail taken =>
    obtain ⟨_, _, h⟩ := whenArmed_next.mp h
    split at h
    · next hle =>
      rw [done_next.mp h]
      exact leaves_of_commit (.drained avail taken hle)
    · cases h
  | evWrite bytes =>
    by_cases hempty : bytes = []
    · rw [show exec (.evWrite bytes) s = _ from if_pos hempty] at h
      exact leaves_of_answer h
    · rw [show exec (.evWrite bytes) s = _ from if_neg hempty] at h
      exact leaves_of_emitAlone nofun h
  | evOpen | evClosed | evFrameReceived | evFrameSent | evConsoleSuspend | evConsoleResume | evSetDispatcherOn
  | evSetDispatcherOff | evRxEnable | evRequestDispatch | evDiagWarnChecksum | evDiagErrorOversize =>
    exact leaves_of_emitAlone nofun h
  | errChecksumMismatch | errOversize | errSendRejected =>
    exact leaves_of_raise (by decide) (whenAlive_next.mp h).2
  | errSetupFailure =>
    cases halive : s.chan.alive with
    | true => rw [show exec .errSetupFailure s = _ from if_pos halive] at h; cases h
    | false =>
      rw [show exec .errSetupFailure s = _ from if_neg (by simp [halive])] at h
      exact leaves_of_raise (by decide) h
  | findDelim | classify | splitMeta | decodeData | crc32 | hex8 | check | encodeFrame | encodeHandshake =>
    exact leaves_of_answer h

end Sys2Proof.Machine
end

section
/-! PROOFS. The invariants (10_state.md section 6; 44_channel_fsm.md R136, R138): the flags, the two buffers, the console and the session,
each kept by what an instruction did. -/

namespace Sys2Proof.Machine

open Sys2Proof.Config

/-! ## The flag invariants -/

/-- What is not alive is not armed, what is not armed is not connected, and so on down to the console (R28, R31). -/
theorem ChannelInv.unarmed_of_dead {c : Channel} (h : ChannelInv c) (hc : c.alive = false) : c.armed = false := by
  by_contra harmed
  simp [h.armed_alive (by simpa using harmed)] at hc

theorem ChannelInv.unconnected_of_unarmed {c : Channel} (h : ChannelInv c) (hc : c.armed = false) : c.connected = false := by
  by_contra hconnected
  simp [h.connected_armed (by simpa using hconnected)] at hc

theorem ChannelInv.idle_of_unconnected {c : Channel} (h : ChannelInv c) (hc : c.connected = false) : c.sending = false := by
  by_contra hsending
  simp [h.sending_connected (by simpa using hsending)] at hc

theorem ChannelInv.userFrame_of_idle {c : Channel} (h : ChannelInv c) (hc : c.sending = false) :
    c.sendingUserFrame = false := by
  by_contra huser
  simp [h.userFrame_sending (by simpa using huser)] at hc

theorem ChannelInv.resume_of_no_userFrame {c : Channel} (h : ChannelInv c) (hc : c.sendingUserFrame = false) :
    c.resumeUart = false := by
  by_contra hresume
  simp [h.resume_userFrame (by simpa using hresume)] at hc

theorem ChannelInv.resume_of_idle {c : Channel} (h : ChannelInv c) (hc : c.sending = false) : c.resumeUart = false :=
  h.resume_of_no_userFrame (h.userFrame_of_idle hc)

/-- `rx_buf` is in none of the flag invariants. -/
theorem ChannelInv.with_rxBuf {c : Channel} (h : ChannelInv c) (buf : Bytes) : ChannelInv { c with rxBuf := buf } :=
  ⟨h.userFrame_sending, h.resume_userFrame, h.sending_queued, h.sending_connected, h.connected_armed, h.connected_notWaiting,
    h.waiting_configured, h.armed_alive⟩

/-- Handling spans on an armed Channel keeps the flag invariants: a handshake connects, ends the wait and leaves something in flight. -/
theorem ChannelInv.handles {c : Channel} {e : Effect} (h : ChannelInv c) (halive : c.alive = true) (harmed : c.armed = true)
    (he : Handles c e) : ChannelInv e.chan := by
  rcases he.session with ⟨hconnected, hwaiting, hsending, htx, _⟩ | ⟨hconnected, hwaiting, hsending, htx, _⟩
  · constructor
    · rw [he.userFrame, hsending]; exact h.userFrame_sending
    · rw [he.resume, he.userFrame]; exact h.resume_userFrame
    · rw [hsending, htx]; exact h.sending_queued
    · rw [hsending, hconnected]; exact h.sending_connected
    · rw [hconnected, he.armed]; exact h.connected_armed
    · rw [hconnected, hwaiting]; exact h.connected_notWaiting
    · rw [hwaiting, he.waitFor]; exact h.waiting_configured
    · rw [he.armed, he.alive]; exact h.armed_alive
  · refine ⟨fun _ => hsending, ?_, fun _ => ?_, fun _ => hconnected, fun _ => he.armed.trans harmed, fun _ => hwaiting, ?_,
      fun _ => he.alive.trans halive⟩
    · rw [he.resume, he.userFrame]; exact h.resume_userFrame
    · rw [htx]
      split
      · next hbusy => exact h.sending_queued hbusy
      · simp [encodeHandshake_bytes]
    · rw [hwaiting]; nofun

/-- The transmit phase keeps the flag invariants: a part leaves something in flight, the rest clears the flags of the frame. -/
theorem ChannelInv.transmits {c : Channel} (h : ChannelInv c) {avail taken : Nat} (hle : taken ≤ min c.txBuf.length avail) :
    ChannelInv (transmitPhase avail taken c).chan := by
  rcases transmitPhase_cases avail taken c hle with ⟨_, heq⟩ | ⟨_, _, hlt, heq⟩ | ⟨_, _, _, heq⟩ <;> rw [heq]
  · exact h
  · have hleft : c.txBuf.drop taken ≠ [] := List.ne_nil_of_length_pos (by rw [List.length_drop]; omega)
    exact ⟨h.userFrame_sending, h.resume_userFrame, fun _ => hleft, h.sending_connected, h.connected_armed,
      h.connected_notWaiting, h.waiting_configured, h.armed_alive⟩
  · exact ⟨nofun, nofun, nofun, nofun, h.connected_armed, h.connected_notWaiting, h.waiting_configured, h.armed_alive⟩

theorem Did.channelInv {s : State} {i : Instr} {e : Effect} (hdid : Did s i e) (h : ChannelInv s.chan) : ChannelInv e.chan := by
  cases hdid with
  | still same _ => rw [same]; exact h.with_rxBuf _
  | created wait max _ => exact channelInv_created wait max
  | connected halive hconnected =>
    have hidle := h.idle_of_unconnected hconnected
    rw [connectChannel_of_not_connected hconnected]
    exact ⟨h.userFrame_sending, h.resume_userFrame, h.sending_queued, h.sending_connected, fun _ => rfl,
      fun hc => absurd (hconnected.symm.trans hc) (by decide), id, fun _ => halive⟩
  | queued payload consoleOnLine _ hconnected _ =>
    rw [queueUserFrame_eq]
    exact ⟨fun _ => rfl, fun _ => rfl, fun _ => by simp [encodeFrame], fun _ => hconnected, h.connected_armed,
      h.connected_notWaiting, h.waiting_configured, h.armed_alive⟩
  | closed _ => exact ⟨nofun, nofun, nofun, nofun, nofun, nofun, h.waiting_configured, nofun⟩
  | destroyed _ hunarmed =>
    have hidle := h.idle_of_unconnected (h.unconnected_of_unarmed hunarmed)
    exact ⟨h.userFrame_sending, h.resume_userFrame, fun hs => absurd (hidle.symm.trans hs) (by decide), h.sending_connected,
      h.connected_armed, h.connected_notWaiting, h.waiting_configured, fun ha => absurd (hunarmed.symm.trans ha) (by decide)⟩
  | received halive harmed handles _ _ _ => exact h.handles halive harmed handles
  | dispatched rx avail taken n halive harmed hle =>
    exact (h.handles halive harmed (handles_receivePhase rx s.chan)).transmits hle
  | drained avail taken hle => exact h.transmits hle

/-! ## The send buffer -/

/-- Handling spans leaves nothing queued behind a Channel that is idle: a reply makes it sending. -/
theorem Handles.idle_empty {c : Channel} {e : Effect} (he : Handles c e) (h : c.sending = false → c.txBuf = []) :
    e.chan.sending = false → e.chan.txBuf = [] := by
  rcases he.session with ⟨_, _, hsending, htx, _⟩ | ⟨_, _, hsending, _, _⟩
  · rw [hsending, htx]; exact h
  · rw [hsending]; nofun

theorem transmitPhase_idle_empty {c : Channel} {avail taken : Nat} (hle : taken ≤ min c.txBuf.length avail)
    (h : c.sending = false → c.txBuf = []) :
    (transmitPhase avail taken c).chan.sending = false → (transmitPhase avail taken c).chan.txBuf = [] := by
  rcases transmitPhase_cases avail taken c hle with ⟨_, heq⟩ | ⟨hsending, _, _, heq⟩ | ⟨_, _, _, heq⟩ <;> rw [heq]
  · exact h
  · exact fun hidle => absurd (hsending.symm.trans hidle) (by decide)
  · exact fun _ => rfl

/-- R28 item 9: every instruction but CLOSE leaves nothing queued behind an idle Channel. -/
theorem Did.idle_empty {s : State} {i : Instr} {e : Effect} (hdid : Did s i e) (hi : i ≠ .close)
    (h : s.chan.sending = false → s.chan.txBuf = []) : e.chan.sending = false → e.chan.txBuf = [] := by
  cases hdid with
  | still same _ => rw [same]; exact h
  | created wait max _ => exact fun _ => rfl
  | connected _ hconnected => rw [connectChannel_of_not_connected hconnected]; exact h
  | queued payload consoleOnLine _ _ _ => nofun
  | closed _ => exact absurd rfl hi
  | destroyed _ _ => exact fun _ => rfl
  | received _ _ handles _ _ _ => exact handles.idle_empty h
  | dispatched rx avail taken n _ _ hle =>
    exact transmitPhase_idle_empty hle ((handles_receivePhase rx s.chan).idle_empty h)
  | drained avail taken hle => exact transmitPhase_idle_empty hle h

/-- Handling spans queues at most the reply, on a Channel with nothing queued (R28 item 10). -/
theorem QueueInv.handles {c : Channel} {e : Effect} (h : QueueInv c) (hinv : ChannelInv c) (he : Handles c e) :
    QueueInv e.chan := by
  have hempty := he.idle_empty h.idle_empty
  rcases he.session with ⟨_, _, hsending, htx, _⟩ | ⟨_, _, _, htx, _⟩
  · refine ⟨hempty, ?_, ?_⟩ <;> rw [he.userFrame, hsending, htx]
    · exact h.one_userFrame
    · exact h.one_reply
  · cases hbusy : c.sending with
    | true =>
      refine ⟨hempty, fun _ => ?_, fun _ => ?_⟩ <;> rw [he.userFrame, htx, if_pos hbusy]
      · exact h.one_userFrame hbusy
      · exact h.one_reply hbusy
    | false =>
      refine ⟨hempty, fun _ => ?_, fun _ => ?_⟩ <;>
        rw [he.userFrame, hinv.userFrame_of_idle hbusy, htx, if_neg (by simp [hbusy]), h.idle_empty hbusy]
      · nofun
      · exact fun _ => List.suffix_rfl

/-- The transmit phase leaves a part of what was queued, or nothing (R28 item 10). -/
theorem QueueInv.transmits {c : Channel} (h : QueueInv c) {avail taken : Nat} (hle : taken ≤ min c.txBuf.length avail) :
    QueueInv (transmitPhase avail taken c).chan := by
  have hempty := transmitPhase_idle_empty hle h.idle_empty
  rcases transmitPhase_cases avail taken c hle with ⟨_, heq⟩ | ⟨_, _, _, heq⟩ | ⟨_, _, _, heq⟩ <;> rw [heq] at hempty ⊢
  · exact ⟨hempty, h.one_userFrame, h.one_reply⟩
  · refine ⟨hempty, fun hsending huser => ?_, fun hsending huser =>
      (List.drop_suffix _ _).trans (h.one_reply hsending huser)⟩
    obtain ⟨payload, hpayload⟩ := h.one_userFrame hsending huser
    exact ⟨payload, (List.drop_suffix _ _).trans hpayload⟩
  · exact ⟨hempty, nofun, nofun⟩

/-- R28 items 9 and 10: every instruction but CLOSE keeps what is queued to what is left of one frame. -/
theorem Did.queueInv {s : State} {i : Instr} {e : Effect} (hdid : Did s i e) (hi : i ≠ .close) (hinv : ChannelInv s.chan)
    (h : QueueInv s.chan) : QueueInv e.chan := by
  cases hdid with
  | still same _ => rw [same]; exact ⟨h.idle_empty, h.one_userFrame, h.one_reply⟩
  | created wait max _ => exact queueInv_created wait max
  | connected _ hconnected =>
    rw [connectChannel_of_not_connected hconnected]
    exact ⟨h.idle_empty, h.one_userFrame, h.one_reply⟩
  | queued payload consoleOnLine _ _ hidle =>
    rw [queueUserFrame_eq, h.idle_empty hidle, List.nil_append]
    exact ⟨nofun, fun _ _ => ⟨payload, List.suffix_rfl⟩, nofun⟩
  | closed _ => exact absurd rfl hi
  | destroyed _ _ => exact ⟨fun _ => rfl, fun _ _ => ⟨[], List.nil_suffix⟩, fun _ _ => List.nil_suffix⟩
  | received _ _ handles _ _ _ => exact h.handles hinv handles
  | dispatched rx avail taken n _ _ hle => exact (h.handles hinv (handles_receivePhase rx s.chan)).transmits hle
  | drained avail taken hle => exact h.transmits hle

/-! ## The receive buffer -/

/-- R28 items 7 and 8: every command keeps them; a DISPATCH with input establishes them (`residueInv_receivePhase`). -/
theorem Did.residueInv {s : State} {i : Instr} {e : Effect} (hdid : Did s i e) (hi : i.format = .cmd)
    (h : ResidueInv s.chan) : ResidueInv e.chan := by
  cases hdid with
  | still _ command => rw [(command hi).1]; exact h
  | created wait max _ => exact residueInv_created wait max
  | connected _ hconnected =>
    rw [connectChannel_of_not_connected hconnected]
    exact ⟨h.no_delimiter, h.bounded⟩
  | queued payload consoleOnLine _ _ _ => exact ⟨h.no_delimiter, h.bounded⟩
  | closed _ => exact ⟨h.no_delimiter, h.bounded⟩
  | destroyed _ _ => exact ⟨noDelim_nil, Nat.zero_le _⟩
  | received _ _ _ _ _ internal => exact absurd hi internal
  | dispatched rx avail taken n _ _ hle =>
    have hreceive : ResidueInv (receivePhase rx s.chan).chan := by
      by_cases hrx : rx = []
      · rw [hrx, receivePhase_nil]; exact h
      · exact residueInv_receivePhase hrx s.chan
    rw [andThen_chan, transmitPhase_chan hle]
    exact ⟨hreceive.no_delimiter, hreceive.bounded⟩
  | drained avail taken hle => cases hi

/-! ## The console -/

/-- Only the two console events move the console (R138). -/
theorem consoleStep_of_other (st : Option Bool) {e : Event} (hsuspend : e ≠ .consoleSuspend) (hresume : e ≠ .consoleResume) :
    consoleStep st e = st := by
  unfold consoleStep
  split
  · exact absurd rfl hsuspend
  · exact absurd rfl hresume
  · exact absurd rfl hsuspend
  · exact absurd rfl hresume
  · rfl

theorem foldl_consoleStep_of_others {events : List Event} (st : Option Bool)
    (h : ∀ e ∈ events, e ≠ .consoleSuspend ∧ e ≠ .consoleResume) : events.foldl consoleStep st = st := by
  induction events generalizing st with
  | nil => rfl
  | cons e rest ih =>
    obtain ⟨hsuspend, hresume⟩ := h e List.mem_cons_self
    rw [List.foldl_cons, consoleStep_of_other st hsuspend hresume, ih st fun e he => h e (List.mem_cons_of_mem _ he)]

/-- The events of a receive phase. -/
theorem mem_receivePhase_trace {rx : Bytes} {c : Channel} {e : Event} (he : e ∈ (receivePhase rx c).trace) :
    e = .opened ∨ e = .diagWarnChecksum ∨ e = .diagErrorOversize ∨ ∃ msg, e = .frameReceived msg := by
  obtain ⟨spans, oversize, hspans, _, htrace, hoversize⟩ := receivePhase_spec rx c
  rw [htrace, List.mem_append] at he
  rcases he with he | he
  · rcases hspans.events e he with h | h | ⟨msg, _, h⟩
    · exact .inl h
    · exact .inr (.inl h)
    · exact .inr (.inr (.inr ⟨msg, h⟩))
  · exact .inr (.inr (.inl (mem_oversize hoversize he)))

/-- The transmit phase resumes the console exactly when it clears `resume_uart` (R127). -/
theorem console_transmitPhase {avail taken : Nat} {c : Channel} (hle : taken ≤ min c.txBuf.length avail) :
    (transmitPhase avail taken c).trace.foldl consoleStep (some c.resumeUart) =
      some (transmitPhase avail taken c).chan.resumeUart := by
  rcases transmitPhase_cases avail taken c hle with ⟨_, heq⟩ | ⟨_, _, _, heq⟩ | ⟨_, _, _, heq⟩ <;> rw [heq]
  · rfl
  · refine foldl_consoleStep_of_others _ fun e he => ?_
    rw [txWrite_trace] at he
    split at he
    · cases he
    · rw [List.mem_singleton.mp he]
      exact ⟨nofun, nofun⟩
  · have hwrite (st : Option Bool) :
        (if c.txBuf = [] then [] else [Event.write c.txBuf]).foldl consoleStep st = st := by
      refine foldl_consoleStep_of_others _ fun e he => ?_
      split at he
      · cases he
      · rw [List.mem_singleton.mp he]
        exact ⟨nofun, nofun⟩
    rw [List.foldl_append, hwrite]
    cases c.resumeUart <;> cases c.sendingUserFrame <;> rfl

/-- R138: a command moves the console as it moves `resume_uart`. -/
theorem Did.console {s : State} {i : Instr} {e : Effect} (hdid : Did s i e) (hi : i.format = .cmd) (h : ChannelInv s.chan) :
    e.trace.foldl consoleStep (some s.chan.resumeUart) = some e.chan.resumeUart := by
  cases hdid with
  | still _ command =>
    obtain ⟨hchan, htrace⟩ := command hi
    rw [hchan, htrace]
    rfl
  | created wait max hdead =>
    rw [h.resume_of_idle (h.idle_of_unconnected (h.unconnected_of_unarmed (h.unarmed_of_dead hdead)))]
    rfl
  | connected _ hconnected =>
    rw [connectChannel_of_not_connected hconnected]
    cases s.chan.resumeUart <;> rfl
  | queued payload consoleOnLine _ _ hidle =>
    rw [queueUserFrame_eq, h.resume_of_idle hidle]
    cases consoleOnLine <;> rfl
  | closed _ =>
    rw [closeChannel_trace]
    cases s.chan.resumeUart <;> rfl
  | destroyed _ _ => rfl
  | received _ _ _ _ _ internal => exact absurd hi internal
  | dispatched rx avail taken n _ _ hle =>
    have hsilent : (receivePhase rx s.chan).trace.foldl consoleStep (some s.chan.resumeUart) =
        some (receivePhase rx s.chan).chan.resumeUart := by
      rw [(handles_receivePhase rx s.chan).resume]
      refine foldl_consoleStep_of_others _ fun e he => ?_
      rcases mem_receivePhase_trace he with rfl | rfl | rfl | ⟨msg, rfl⟩ <;> exact ⟨nofun, nofun⟩
    rw [andThen_trace, List.foldl_append, hsilent]
    exact console_transmitPhase hle
  | drained avail taken hle => cases hi

/-! ## The session -/

/-- Without a CLOSED the count of a session grows by the OPENs (R136). -/
theorem foldl_sessionStep_of_no_closed {events : List Event} (n : Nat) (h : Event.closed ∉ events) :
    events.foldl sessionStep n = n + events.count .opened := by
  induction events generalizing n with
  | nil => rfl
  | cons e rest ih =>
    have hrest : Event.closed ∉ rest := fun hmem => h (List.mem_cons_of_mem _ hmem)
    rw [List.foldl_cons, ih _ hrest]
    cases e with
    | opened => rw [List.count_cons_self, sessionStep]; omega
    | closed => exact absurd List.mem_cons_self h
    | _ => simp [sessionStep]

/-- One OPEN in a connected session, none in any other (R136). -/
def opensDue (c : Channel) : Nat := if c.connected then 1 else 0

/-- Phases that raise OPEN when they connect, never disconnect and raise no CLOSED keep the count (R136). -/
theorem session_of_count {c d : Channel} {events : List Event} (hclosed : Event.closed ∉ events)
    (hkeep : c.connected = true → d.connected = true)
    (hcount : events.count .opened = if c.connected = false ∧ d.connected = true then 1 else 0) :
    events.foldl sessionStep (opensDue c) = opensDue d := by
  rw [foldl_sessionStep_of_no_closed _ hclosed, hcount, opensDue, opensDue]
  cases hc : c.connected with
  | true => simp [hkeep hc]
  | false => cases d.connected <;> rfl

/-- R136: a command keeps the count of OPENs since the last CLOSED in step with `connected`. -/
theorem Did.session {s : State} {i : Instr} {e : Effect} (hdid : Did s i e) (hi : i.format = .cmd) (h : ChannelInv s.chan) :
    e.trace.foldl sessionStep (opensDue s.chan) = opensDue e.chan := by
  cases hdid with
  | still _ command =>
    obtain ⟨hchan, htrace⟩ := command hi
    rw [hchan, htrace]
    rfl
  | created wait max hdead =>
    rw [opensDue, h.unconnected_of_unarmed (h.unarmed_of_dead hdead)]
    rfl
  | connected _ hconnected => rw [connectChannel_of_not_connected hconnected]; rfl
  | queued payload consoleOnLine _ _ _ => cases consoleOnLine <;> rfl
  | closed _ =>
    rw [closeChannel_trace]
    cases s.chan.resumeUart <;> rfl
  | destroyed _ _ => rfl
  | received _ _ _ _ _ internal => exact absurd hi internal
  | dispatched rx avail taken n _ _ hle =>
    have hconnected : ((receivePhase rx s.chan).andThen (transmitPhase avail n)).chan.connected =
        (receivePhase rx s.chan).chan.connected := by rw [andThen_chan, transmitPhase_chan hle]
    refine session_of_count (fun hmem => ?_) (fun hc => ?_) ?_
    · rw [andThen_trace, List.mem_append] at hmem
      rcases hmem with hmem | hmem
      · rcases mem_receivePhase_trace hmem with h | h | h | ⟨_, h⟩ <;> cases h
      · rcases mem_transmitPhase_trace hle hmem with ⟨_, h⟩ | h | h <;> cases h
    · rw [hconnected]
      exact (handles_receivePhase rx s.chan).connected_of_connected hc
    · rw [andThen_trace, List.count_append, count_opened_transmitPhase hle, hconnected]
      exact count_opened_receivePhase rx s.chan
  | drained avail taken hle => cases hi

/-! ## The obligations -/

/-- A step runs an instruction, on the same Channel, or holds the state. -/
theorem step_next {s t : State} (h : step s = .next t) : t = s ∨ ∃ i rest, exec i { s with port := rest } = .next t := by
  unfold step at h
  split at h
  · cases h
    exact .inl rfl
  · cases h
  · next i u hfetch =>
    refine .inr ⟨i, ?_⟩
    unfold fetch at hfetch
    split at hfetch
    · cases hfetch
    · obtain ⟨_, rfl⟩ := Prod.mk.inj (Option.some.inj hfetch)
      exact ⟨_, h⟩

/-- Settles O53: the flags by `Did.channelInv`, the send buffer by `Did.idle_empty` and `Did.queueInv`. -/
theorem channelInvariantIsKeptByEveryStep : Obligations.ChannelInvariantIsKeptByEveryStep := by
  refine ⟨fun s t hinv h => ?_, fun i s t hi h hidle => ?_, fun i s t hi hinv hqueue h => ?_⟩
  · rcases step_next h with rfl | ⟨i, rest, h⟩
    · exact hinv
    · obtain ⟨e, hdid, hchan, _⟩ := exec_leaves h
      rw [hchan]
      exact hdid.channelInv hinv
  · obtain ⟨e, hdid, hchan, _⟩ := exec_leaves h
    rw [hchan]
    exact hdid.idle_empty hi hidle
  · obtain ⟨e, hdid, hchan, _⟩ := exec_leaves h
    rw [hchan]
    exact hdid.queueInv hi hinv hqueue

/-- Settles O54. -/
theorem residueInvariantIsKeptByEveryCommand : Obligations.ResidueInvariantIsKeptByEveryCommand := by
  intro i s t hi hresidue h
  obtain ⟨e, hdid, hchan, _⟩ := exec_leaves h
  rw [hchan]
  exact hdid.residueInv hi hresidue

/-- Settles O55: the console is followed through what the command emitted. -/
theorem consoleSuspensionIsSymmetric : Obligations.ConsoleSuspensionIsSymmetric := by
  intro i s t hi hinv hconsole h
  obtain ⟨e, hdid, hchan, htrace⟩ := exec_leaves h
  have hstart : s.trace.foldl consoleStep (some false) = some s.chan.resumeUart := hconsole
  rw [ConsoleInv, consoleTrack, htrace, hchan, List.foldl_append, hstart]
  exact hdid.console hi hinv

/-- Settles O56: the OPENs are counted through what the command emitted. -/
theorem oneOpenPerSession : Obligations.OneOpenPerSession := by
  intro i s t hi hinv hsession h
  obtain ⟨e, hdid, hchan, htrace⟩ := exec_leaves h
  have hstart : s.trace.foldl sessionStep 0 = opensDue s.chan := hsession
  rw [SessionInv, opensSinceClosed, htrace, hchan, List.foldl_append, hstart]
  exact hdid.session hi hinv

end Sys2Proof.Machine
end

section
/-! PROOFS. Who connects and who disconnects, who writes the configuration, and the named states (44_channel_fsm.md R135; 10_state.md
R15, R16, R25). -/

namespace Sys2Proof.Machine

open Sys2Proof.Config

/-! ## Connecting -/

/-- What connected: an instruction that handles spans, or a DISPATCH with input (R135). -/
theorem Did.connects {s : State} {i : Instr} {e : Effect} (hdid : Did s i e) (hs : s.chan.connected = false)
    (he : e.chan.connected = true) :
    handshakeSource i s ∧ Event.opened ∈ e.trace ∧ e.chan.waitingForStartFrame = false ∧
      (i.format = .cmd → ∃ rx avail taken, i = .dispatch rx avail taken ∧ rx ≠ []) := by
  have hclash : ∀ {b : Bool}, b = s.chan.connected → b ≠ true := by rintro _ rfl; simp [hs]
  cases hdid with
  | still same _ => exact absurd he (hclash (by rw [same]))
  | created wait max _ => cases he
  | connected _ hconnected => exact absurd he (hclash (by rw [connectChannel_of_not_connected hconnected]))
  | queued payload consoleOnLine _ hconnected _ => exact absurd hconnected (hclash rfl)
  | closed _ => cases he
  | destroyed _ _ => exact absurd he (hclash rfl)
  | received _ _ handles source _ internal =>
    obtain ⟨hopened, hwaiting⟩ := handles.opened_of_connects hs he
    exact ⟨source hs he, hopened, hwaiting, fun hcmd => absurd hcmd internal⟩
  | dispatched rx avail taken n _ _ hle =>
    rw [andThen_chan, transmitPhase_chan hle] at he ⊢
    obtain ⟨hrx, hsource⟩ := holdsHandshake_of_receivePhase_connects hs he
    obtain ⟨hopened, hwaiting⟩ := (handles_receivePhase rx s.chan).opened_of_connects hs he
    exact ⟨hsource, List.mem_append_left _ hopened, hwaiting, fun _ => ⟨rx, avail, taken, rfl, hrx⟩⟩
  | drained avail taken hle => exact absurd he (hclash (by rw [transmitPhase_chan hle]))

/-- Only CLOSE disconnects: CREATE and DESTROY need a Channel that is not armed (R135, R186). -/
theorem Did.disconnects {s : State} {i : Instr} {e : Effect} (hdid : Did s i e) (hinv : ChannelInv s.chan)
    (hs : s.chan.connected = true) (he : e.chan.connected = false) : i = .close := by
  have hunarmed : s.chan.armed ≠ false := fun h => by simp [hinv.unconnected_of_unarmed h] at hs
  have hclash : ∀ {b : Bool}, b = s.chan.connected → b ≠ false := by rintro _ rfl; simp [hs]
  cases hdid with
  | still same _ => exact absurd he (hclash (by rw [same]))
  | created wait max hdead => exact absurd (hinv.unarmed_of_dead hdead) hunarmed
  | connected _ hconnected => exact absurd hconnected (hclash rfl)
  | queued payload consoleOnLine _ _ _ => exact absurd he (hclash rfl)
  | closed _ => rfl
  | destroyed _ h => exact absurd h hunarmed
  | received _ _ handles _ _ _ => exact absurd he (by simp [handles.connected_of_connected hs])
  | dispatched rx avail taken n _ _ hle =>
    rw [andThen_chan, transmitPhase_chan hle] at he
    exact absurd he (by simp [(handles_receivePhase rx s.chan).connected_of_connected hs])
  | drained avail taken hle => exact absurd he (hclash (by rw [transmitPhase_chan hle]))

/-! ## The configuration -/

/-- No instruction but CREATE writes the configuration (R15, R16). -/
theorem Did.configuration {s : State} {i : Instr} {e : Effect} (hdid : Did s i e) (hi : ∀ wait max, i ≠ .create wait max) :
    e.chan.waitForStartFrame = s.chan.waitForStartFrame ∧ e.chan.maxFrameSize = s.chan.maxFrameSize := by
  cases hdid with
  | still same _ => rw [same]; exact ⟨rfl, rfl⟩
  | created wait max _ => exact absurd rfl (hi wait max)
  | connected _ hconnected => rw [connectChannel_of_not_connected hconnected]; exact ⟨rfl, rfl⟩
  | queued payload consoleOnLine _ _ _ => exact ⟨rfl, rfl⟩
  | closed _ => exact ⟨rfl, rfl⟩
  | destroyed _ _ => exact ⟨rfl, rfl⟩
  | received _ _ handles _ _ _ => exact ⟨handles.waitFor, handles.maxFrame⟩
  | dispatched rx avail taken n _ _ hle =>
    have handles := handles_receivePhase rx s.chan
    rw [andThen_chan, transmitPhase_chan hle]
    exact ⟨handles.waitFor, handles.maxFrame⟩
  | drained avail taken hle => rw [transmitPhase_chan hle]; exact ⟨rfl, rfl⟩

/-! ## The named states -/

theorem fsmState_destroyed_iff (c : Channel) : fsmState c = .destroyed ↔ c.alive = false := by
  unfold fsmState
  split_ifs <;> simp_all

theorem fsmState_disconnected_iff (c : Channel) : fsmState c = .disconnected ↔ c.alive = true ∧ c.armed = false := by
  unfold fsmState
  split_ifs <;> simp_all

theorem fsmState_connecting_iff (c : Channel) :
    fsmState c = .connecting ↔ c.alive = true ∧ c.armed = true ∧ c.connected = false := by
  unfold fsmState
  split_ifs <;> simp_all

theorem fsmState_idle_iff (c : Channel) :
    fsmState c = .connectedIdle ↔ c.alive = true ∧ c.armed = true ∧ c.connected = true ∧ c.sending = false := by
  unfold fsmState
  split_ifs <;> simp_all

theorem fsmState_reply_iff (c : Channel) :
    fsmState c = .connectedSendingReply ↔
      c.alive = true ∧ c.armed = true ∧ c.connected = true ∧ c.sending = true ∧ c.sendingUserFrame = false := by
  unfold fsmState
  split_ifs <;> simp_all

theorem fsmState_user_iff (c : Channel) :
    fsmState c = .connectedSendingUser ↔
      c.alive = true ∧ c.armed = true ∧ c.connected = true ∧ c.sending = true ∧ c.sendingUserFrame = true := by
  unfold fsmState
  split_ifs <;> simp_all

/-- The named state is a function of five flags (R25). -/
theorem fsmState_congr {c d : Channel} (halive : d.alive = c.alive) (harmed : d.armed = c.armed)
    (hconnected : d.connected = c.connected) (hsending : d.sending = c.sending)
    (huser : d.sendingUserFrame = c.sendingUserFrame) : fsmState d = fsmState c := by
  rw [fsmState, fsmState, halive, harmed, hconnected, hsending, huser]

/-- A move of the table, or none. -/
def MovesBy (moves : List (FsmState × FsmState)) (c d : Channel) : Prop :=
  fsmState d = fsmState c ∨ (fsmState c, fsmState d) ∈ moves

/-- Handling spans moves to the reply, or not at all (R135). -/
theorem Handles.moves {c : Channel} {e : Effect} (he : Handles c e) (h : ChannelInv c) (halive : c.alive = true)
    (harmed : c.armed = true) : MovesBy receiveMoves c e.chan := by
  rcases he.session with ⟨hconnected, _, hsending, _, _⟩ | ⟨hconnected, _, hsending, _, _⟩
  · exact .inl (fsmState_congr he.alive he.armed hconnected hsending he.userFrame)
  · cases hbusy : c.sending with
    | true =>
      exact .inl (fsmState_congr he.alive he.armed (hconnected.trans (h.sending_connected hbusy).symm)
        (hsending.trans hbusy.symm) he.userFrame)
    | false =>
      have hafter : fsmState e.chan = .connectedSendingReply :=
        (fsmState_reply_iff _).mpr ⟨he.alive.trans halive, he.armed.trans harmed, hconnected, hsending,
          he.userFrame.trans (h.userFrame_of_idle hbusy)⟩
      have hbefore : fsmState c = .connecting ∨ fsmState c = .connectedIdle := by
        cases hc : c.connected with
        | false => exact .inl ((fsmState_connecting_iff c).mpr ⟨halive, harmed, hc⟩)
        | true => exact .inr ((fsmState_idle_iff c).mpr ⟨halive, harmed, hc, hbusy⟩)
      refine .inr ?_
      rw [hafter]
      rcases hbefore with hbefore | hbefore <;> rw [hbefore] <;> decide

/-- The transmit phase moves to idle, or not at all (R135). -/
theorem transmitPhase_moves {c : Channel} (h : ChannelInv c) {avail taken : Nat} (hle : taken ≤ min c.txBuf.length avail) :
    MovesBy drainMoves c (transmitPhase avail taken c).chan := by
  rcases transmitPhase_cases avail taken c hle with ⟨_, heq⟩ | ⟨_, _, _, heq⟩ | ⟨hsending, _, _, heq⟩ <;> rw [heq]
  · exact .inl rfl
  · exact .inl rfl
  · have hconnected := h.sending_connected hsending
    have harmed := h.connected_armed hconnected
    have halive := h.armed_alive harmed
    have hafter : fsmState { c with txBuf := [], sending := false, resumeUart := false, sendingUserFrame := false } =
        .connectedIdle := (fsmState_idle_iff _).mpr ⟨halive, harmed, hconnected, rfl⟩
    refine .inr ?_
    rw [hafter]
    cases huser : c.sendingUserFrame with
    | true => rw [(fsmState_user_iff c).mpr ⟨halive, harmed, hconnected, hsending, huser⟩]; decide
    | false => rw [(fsmState_reply_iff c).mpr ⟨halive, harmed, hconnected, hsending, huser⟩]; decide

/-- The moves of a DISPATCH are those of its phases, one after the other (R135). -/
theorem MovesBy.receive_drain {c d e : Channel} (hreceive : MovesBy receiveMoves c d) (hdrain : MovesBy drainMoves d e)
    (rx : Bytes) (avail : Nat) (taken : Option Nat) : MovesBy (fsmMoves (.dispatch rx avail taken)) c e := by
  unfold MovesBy at *
  generalize fsmState c = a at *
  generalize fsmState d = b at *
  generalize fsmState e = z at *
  simp only [receiveMoves, drainMoves, fsmMoves, List.mem_cons, Prod.mk.injEq, List.not_mem_nil, or_false] at *
  rcases hreceive with rfl | ⟨rfl, rfl⟩ | ⟨rfl, rfl⟩ <;> rcases hdrain with rfl | ⟨h, rfl⟩ | ⟨h, rfl⟩ <;> simp_all

/-- Every change of the named state is one of the table (R135). -/
theorem Did.moves {s : State} {i : Instr} {e : Effect} (hdid : Did s i e) (h : ChannelInv s.chan) :
    MovesBy (fsmMoves i) s.chan e.chan := by
  cases hdid with
  | still same _ => rw [same]; exact .inl rfl
  | created wait max hdead =>
    refine .inr ?_
    rw [(fsmState_destroyed_iff _).mpr hdead]
    exact List.mem_cons_self
  | connected halive hconnected =>
    rw [connectChannel_of_not_connected hconnected]
    have hafter : fsmState { s.chan with waitingForStartFrame := s.chan.waitForStartFrame, armed := true } = .connecting :=
      (fsmState_connecting_iff _).mpr ⟨halive, rfl, hconnected⟩
    rw [MovesBy, hafter]
    cases harmed : s.chan.armed with
    | true => exact .inl ((fsmState_connecting_iff _).mpr ⟨halive, harmed, hconnected⟩).symm
    | false =>
      rw [(fsmState_disconnected_iff _).mpr ⟨halive, harmed⟩]
      decide
  | queued payload consoleOnLine halive hconnected hidle =>
    have harmed := h.connected_armed hconnected
    have hafter : fsmState (queueUserFrame payload consoleOnLine s.chan).chan = .connectedSendingUser :=
      (fsmState_user_iff _).mpr ⟨halive, harmed, hconnected, rfl, rfl⟩
    rw [MovesBy, hafter, (fsmState_idle_iff _).mpr ⟨halive, harmed, hconnected, hidle⟩]
    exact .inr List.mem_cons_self
  | closed halive =>
    have hafter : fsmState (closeChannel s.chan).chan = .disconnected := (fsmState_disconnected_iff _).mpr ⟨halive, rfl⟩
    have hbefore : fsmState s.chan ≠ .destroyed := fun hdead => by
      simp [(fsmState_destroyed_iff _).mp hdead] at halive
    rw [MovesBy, hafter]
    cases hstate : fsmState s.chan with
    | destroyed => exact absurd hstate hbefore
    | _ => decide
  | destroyed halive hunarmed =>
    have hafter : fsmState (destroyChannel s.chan).chan = .destroyed := (fsmState_destroyed_iff _).mpr rfl
    rw [MovesBy, hafter, (fsmState_disconnected_iff _).mpr ⟨halive, hunarmed⟩]
    decide
  | received halive harmed handles _ moves _ => rw [moves]; exact handles.moves h halive harmed
  | dispatched rx avail taken n halive harmed hle =>
    have handles := handles_receivePhase rx s.chan
    exact (handles.moves h halive harmed).receive_drain (transmitPhase_moves (h.handles halive harmed handles) hle) rx avail taken
  | drained avail taken hle => exact transmitPhase_moves h hle

/-! ## The obligations on every instruction -/

/-- Settles O57: what connected is `Did.connects`, and what disconnected is `Did.disconnects`. -/
theorem onlyHandshakesConnectAndOnlyCloseDisconnects : Obligations.OnlyHandshakesConnectAndOnlyCloseDisconnects := by
  refine ⟨fun i s t h hs ht => ?_, fun i s t hinv h hs ht => ?_⟩
  · obtain ⟨e, hdid, hchan, htrace⟩ := exec_leaves h
    rw [hchan] at ht ⊢
    rw [emitted, htrace, List.drop_left]
    exact hdid.connects hs ht
  · obtain ⟨e, hdid, hchan, _⟩ := exec_leaves h
    rw [hchan] at ht
    exact hdid.disconnects hinv hs ht

/-- Settles O58. -/
theorem onlyCreateWritesTheConfiguration : Obligations.OnlyCreateWritesTheConfiguration := by
  intro i s t h hi
  obtain ⟨e, hdid, hchan, _⟩ := exec_leaves h
  rw [hchan]
  exact hdid.configuration hi

end Sys2Proof.Machine
end

section
/-! PROOFS. The transition table of the named states, row by row (44_channel_fsm.md R135). -/

namespace Sys2Proof.Machine

open Sys2Proof.Config

/-! ## What the rows rest on -/

/-- An operation that commits an effect leads to what holds of the state it commits. -/
theorem leadsTo_of_commit {i : Instr} {s : State} {e : Effect} {r : OpResult} {p : State → Prop}
    (h : exec i s = .next (s.commit e r)) (hp : p (s.commit e r)) : leadsTo i s p :=
  ⟨_, h, hp⟩

/-- Both states in which nothing is connected and the Channel is alive are states in which nothing is in flight. -/
theorem ChannelInv.unconnected_of_state {c : Channel} (h : ChannelInv c)
    (hc : fsmState c = .disconnected ∨ fsmState c = .connecting) : c.alive = true ∧ c.connected = false := by
  rcases hc with hc | hc
  · obtain ⟨halive, hunarmed⟩ := (fsmState_disconnected_iff c).mp hc
    exact ⟨halive, h.unconnected_of_unarmed hunarmed⟩
  · obtain ⟨halive, _, hconnected⟩ := (fsmState_connecting_iff c).mp hc
    exact ⟨halive, hconnected⟩

theorem ChannelInv.armed_of_connected {c : Channel} (h : ChannelInv c) (hc : c.connected = true) :
    c.alive = true ∧ c.armed = true :=
  ⟨h.armed_alive (h.connected_armed hc), h.connected_armed hc⟩

/-- Both sending states are connected states with a frame in flight. -/
theorem sending_of_state {c : Channel} (hc : fsmState c = .connectedSendingReply ∨ fsmState c = .connectedSendingUser) :
    c.connected = true ∧ c.sending = true := by
  rcases hc with hc | hc
  · obtain ⟨_, _, hconnected, hsending, _⟩ := (fsmState_reply_iff c).mp hc
    exact ⟨hconnected, hsending⟩
  · obtain ⟨_, _, hconnected, hsending, _⟩ := (fsmState_user_iff c).mp hc
    exact ⟨hconnected, hsending⟩

/-- A handshake frame that arrives with nothing held is the handshake alone: its delimiters leave nothing (R59). -/
theorem receivePhase_encodeHandshake {c : Channel} (hc : c.rxBuf = []) : receivePhase encodeHandshake c = rxHandshake c := by
  have hframes : extractFrames { c with rxBuf := encodeHandshake } = rxHandshake c := by
    rw [extractFrames_of_delimiters 1 (tail := [hsByte] ++ (delim ++ [])) rfl,
      extractFrames_span (by decide) (findDelim_eq_none.mp (by decide)) (by decide) rfl, rxFrame_handshake]
    simp only [extractFrames_of_empty]
    refine effect_ext ?_ (List.append_nil _) rfl
    rw [← hc]
    rfl
  rcases receivePhase_cases encodeHandshake c with ⟨h, _⟩ | ⟨_, h⟩
  · cases h
  · rw [h, hc, List.nil_append, hframes, andThen_congr (g := quiet) (postRx_of_empty hc), andThen_quiet]

/-- A driver with room for everything completes the frame in flight (R127). -/
theorem transmitPhase_all {c : Channel} {avail : Nat} (hsending : c.sending = true) (hqueued : c.txBuf ≠ [])
    (hroom : c.txBuf.length ≤ avail) :
    transmitPhase avail (offered c avail) c =
      { chan := { c with txBuf := [], sending := false, resumeUart := false, sendingUserFrame := false }
        trace := [.write c.txBuf] ++ completionEvents c
        errors := [] } := by
  have hlen : 0 < c.txBuf.length := List.length_pos_of_ne_nil hqueued
  have hall : offered c avail = c.txBuf.length := Nat.min_eq_left hroom
  rcases transmitPhase_cases avail (offered c avail) c le_rfl with ⟨hidle, _⟩ | ⟨_, _, hlt, _⟩ | ⟨_, _, _, heq⟩
  · rcases hidle with h | h
    · simp [h] at hsending
    · omega
  · omega
  · rw [heq, if_neg hqueued]
    rfl

/-- A handshake while connecting opens the session and leaves the reply in flight (R128, R135). -/
theorem rxHandshake_of_connecting {c : Channel} (h : ChannelInv c) (hc : fsmState c = .connecting) :
    fsmState (rxHandshake c).chan = .connectedSendingReply ∧ (rxHandshake c).trace = [.opened] := by
  obtain ⟨halive, harmed, hconnected⟩ := (fsmState_connecting_iff c).mp hc
  refine ⟨(fsmState_reply_iff _).mpr ⟨halive, harmed, rfl, rxHandshake_sending c,
    h.userFrame_of_idle (h.idle_of_unconnected hconnected)⟩, ?_⟩
  rw [rxHandshake_trace, hconnected]
  rfl

/-! ## The rows -/

theorem row_create {s : State} (hs : fsmState s.chan = .destroyed) (wait : Bool) (max : Nat) :
    leadsTo (.create wait max) s fun t => fsmState t.chan = .disconnected ∧ emitted s t = [] :=
  ⟨_, exec_create_of_dead ((fsmState_destroyed_iff _).mp hs) wait max, rfl, emitted_commit _ _ _⟩

theorem row_connect {s : State} (h : ChannelInv s.chan)
    (hs : fsmState s.chan = .disconnected ∨ fsmState s.chan = .connecting) :
    leadsTo .connect s fun t => fsmState t.chan = .connecting ∧ t.chan.waitingForStartFrame = s.chan.waitForStartFrame ∧
      emitted s t = [.setDispatcherOn, .rxEnable] := by
  obtain ⟨halive, hconnected⟩ := h.unconnected_of_state hs
  refine leadsTo_of_commit (exec_connect_of_alive halive) ?_
  rw [connectChannel_of_not_connected hconnected, emitted_commit]
  exact ⟨(fsmState_connecting_iff _).mpr ⟨halive, rfl, hconnected⟩, rfl, rfl⟩

theorem row_connect_again {s : State} (h : ChannelInv s.chan) (hs : s.chan.connected = true) :
    leadsTo .connect s fun t => t.chan = s.chan ∧ emitted s t = [] := by
  refine leadsTo_of_commit (exec_connect_of_alive (h.armed_of_connected hs).1) ?_
  rw [connectChannel_of_connected hs, emitted_commit]
  exact ⟨rfl, rfl⟩

theorem row_handshake_connecting {s : State} (h : ChannelInv s.chan) (hs : fsmState s.chan = .connecting) :
    leadsTo .rxHandshake s fun t => fsmState t.chan = .connectedSendingReply ∧ emitted s t = [.opened] := by
  obtain ⟨halive, harmed, _⟩ := (fsmState_connecting_iff _).mp hs
  refine leadsTo_of_commit (exec_rxHandshake_of_armed halive harmed) ?_
  rw [emitted_commit]
  exact rxHandshake_of_connecting h hs

theorem row_feed_handshake {s : State} (h : ChannelInv s.chan) (hs : fsmState s.chan = .connecting)
    (hrx : s.chan.rxBuf = []) :
    leadsTo (feed encodeHandshake) s fun t => fsmState t.chan = .connectedSendingReply ∧ emitted s t = [.opened] := by
  obtain ⟨halive, harmed, _⟩ := (fsmState_connecting_iff _).mp hs
  refine leadsTo_of_commit (exec_feed_of_armed halive harmed _) ?_
  rw [emitted_commit, receivePhase_encodeHandshake hrx]
  exact rxHandshake_of_connecting h hs

/-- With room for what was queued and the reply, the same DISPATCH writes both and is idle again (R135). -/
theorem row_dispatch_handshake {s : State} (h : ChannelInv s.chan) (hs : fsmState s.chan = .connecting)
    (hrx : s.chan.rxBuf = []) {avail : Nat} (havail : s.chan.txBuf.length + 7 ≤ avail) :
    leadsTo (.dispatch encodeHandshake avail none) s fun t =>
      fsmState t.chan = .connectedIdle ∧ emitted s t = [.opened, .write (s.chan.txBuf ++ encodeHandshake)] := by
  obtain ⟨halive, harmed, hconnected⟩ := (fsmState_connecting_iff _).mp hs
  have hidle := h.idle_of_unconnected hconnected
  have htx : (rxHandshake s.chan).chan.txBuf = s.chan.txBuf ++ encodeHandshake := by
    rw [rxHandshake_txBuf, if_neg (by simp [hidle])]
  have hdrain : transmitPhase avail (offered (rxHandshake s.chan).chan avail) (rxHandshake s.chan).chan = _ :=
    transmitPhase_all (rxHandshake_sending _) (by rw [htx]; simp [encodeHandshake_bytes])
      (by rw [htx, List.length_append, encodeHandshake_length]; exact havail)
  have hevents : completionEvents (rxHandshake s.chan).chan = [] := by
    rw [completionEvents, rxHandshake_resume, rxHandshake_userFrame, h.resume_of_idle hidle, h.userFrame_of_idle hidle]
    rfl
  refine leadsTo_of_commit (dispatchChannel_next.mpr ⟨halive, harmed, le_rfl, rfl⟩) ?_
  rw [emitted_commit, commit_chan, andThen_chan, andThen_trace, receivePhase_encodeHandshake hrx, Option.getD_none, hdrain,
    hevents, htx, (rxHandshake_of_connecting h hs).2]
  exact ⟨(fsmState_idle_iff _).mpr ⟨halive, harmed, rfl, rfl⟩, rfl⟩

theorem row_handshake_idle {s : State} (h : ChannelInv s.chan) (hs : fsmState s.chan = .connectedIdle) :
    leadsTo .rxHandshake s fun t => fsmState t.chan = .connectedSendingReply ∧ emitted s t = [] := by
  obtain ⟨halive, harmed, hconnected, hidle⟩ := (fsmState_idle_iff _).mp hs
  refine leadsTo_of_commit (exec_rxHandshake_of_armed halive harmed) ?_
  rw [emitted_commit, rxHandshake_trace, if_pos hconnected]
  exact ⟨(fsmState_reply_iff _).mpr ⟨halive, harmed, rfl, rxHandshake_sending _, h.userFrame_of_idle hidle⟩, rfl⟩

/-- No reply while a frame is in flight: the policy skips it (D8). -/
theorem row_handshake_busy {s : State} (h : ChannelInv s.chan)
    (hs : fsmState s.chan = .connectedSendingReply ∨ fsmState s.chan = .connectedSendingUser) :
    leadsTo .rxHandshake s fun t => t.chan = s.chan ∧ emitted s t = [] := by
  obtain ⟨hconnected, hsending⟩ := sending_of_state hs
  obtain ⟨halive, harmed⟩ := h.armed_of_connected hconnected
  have hsame : (rxHandshake s.chan).chan = s.chan := by
    calc (rxHandshake s.chan).chan = { s.chan with waitingForStartFrame := false, connected := true } := by
          simp [rxHandshake, rxHandshakeWith, replyDue, hsReplyWhenBusy, hsending]
      _ = { s.chan with waitingForStartFrame := s.chan.waitingForStartFrame, connected := s.chan.connected } := by
          rw [h.connected_notWaiting hconnected, hconnected]
  refine leadsTo_of_commit (exec_rxHandshake_of_armed halive harmed) ⟨hsame, ?_⟩
  rw [emitted_commit, rxHandshake_trace, if_pos hconnected]

theorem row_data {s : State} (h : ChannelInv s.chan) (hs : fsmState s.chan = .connecting ∨ s.chan.connected = true)
    (hopen : s.chan.waitingForStartFrame = false) {f msg : Bytes} (hf : f ≠ [hsByte]) (hmsg : decodeData f = .deliver msg) :
    leadsTo (.rxFrame f) s fun t => t.chan = s.chan ∧ emitted s t = [.frameReceived msg] := by
  have harmed : s.chan.alive = true ∧ s.chan.armed = true := by
    rcases hs with hs | hs
    · obtain ⟨halive, harmed, _⟩ := (fsmState_connecting_iff _).mp hs
      exact ⟨halive, harmed⟩
    · exact h.armed_of_connected hs
  refine leadsTo_of_commit (exec_rxFrame_of_armed harmed.1 harmed.2 f) ?_
  rw [emitted_commit, commit_chan, rxFrame_of_not_waiting hf hopen, rxData_of_deliver hmsg]
  exact ⟨rfl, rfl⟩

theorem row_send {s : State} (hs : fsmState s.chan = .connectedIdle) (payload : Bytes) (console : Bool) :
    leadsTo (.send payload console) s fun t => fsmState t.chan = .connectedSendingUser ∧ t.result = .accepted true ∧
      emitted s t = (if console = true then [.consoleSuspend] else []) ++ [.requestDispatch false] := by
  obtain ⟨halive, harmed, hconnected, hidle⟩ := (fsmState_idle_iff _).mp hs
  refine leadsTo_of_commit (exec_send_of_allowed halive hconnected hidle payload console) ?_
  rw [emitted_commit, queueUserFrame_eq]
  exact ⟨(fsmState_user_iff _).mpr ⟨halive, harmed, hconnected, rfl, rfl⟩, rfl, rfl⟩

theorem row_send_rejected {s : State} (h : ChannelInv s.chan)
    (hs : fsmState s.chan = .disconnected ∨ fsmState s.chan = .connecting ∨ fsmState s.chan = .connectedSendingReply ∨
      fsmState s.chan = .connectedSendingUser) (payload : Bytes) (console : Bool) :
    leadsTo (.send payload console) s fun t => t.chan = s.chan ∧ t.result = .accepted false ∧ emitted s t = [] := by
  have hrejected : s.chan.alive = true ∧ (s.chan.connected = false ∨ s.chan.sending = true) := by
    rw [← or_assoc] at hs
    rcases hs with hs | hs
    · exact (h.unconnected_of_state hs).imp id .inl
    · obtain ⟨hconnected, hsending⟩ := sending_of_state hs
      exact ⟨(h.armed_of_connected hconnected).1, .inr hsending⟩
  exact ⟨_, exec_send_of_rejected hrejected.1 hrejected.2 payload console, rfl, rfl, List.drop_length⟩

/-- PUMP with room for everything left writes it and completes the frame (R135). -/
theorem row_pump {s : State} (h : ChannelInv s.chan)
    (hs : fsmState s.chan = .connectedSendingReply ∨ fsmState s.chan = .connectedSendingUser) :
    leadsTo (pump s.chan.txBuf.length) s fun t =>
      fsmState t.chan = .connectedIdle ∧ emitted s t = [.write s.chan.txBuf] ++ completionEvents s.chan := by
  obtain ⟨hconnected, hsending⟩ := sending_of_state hs
  obtain ⟨halive, harmed⟩ := h.armed_of_connected hconnected
  refine leadsTo_of_commit (exec_pump_of_armed halive harmed _) ?_
  rw [emitted_commit, commit_chan, transmitPhase_all hsending (h.sending_queued hsending) le_rfl]
  exact ⟨(fsmState_idle_iff _).mpr ⟨halive, harmed, hconnected, rfl⟩, rfl⟩

theorem row_pump_reply {s : State} (h : ChannelInv s.chan) (hs : fsmState s.chan = .connectedSendingReply) :
    leadsTo (pump s.chan.txBuf.length) s fun t =>
      fsmState t.chan = .connectedIdle ∧ emitted s t = [.write s.chan.txBuf] := by
  obtain ⟨_, _, _, _, huser⟩ := (fsmState_reply_iff _).mp hs
  have hevents : completionEvents s.chan = [] := by
    rw [completionEvents, h.resume_of_no_userFrame huser, huser]
    rfl
  have hrow := row_pump h (.inl hs)
  rwa [hevents, List.append_nil] at hrow

theorem row_pump_user {s : State} (h : ChannelInv s.chan) (hs : fsmState s.chan = .connectedSendingUser) :
    leadsTo (pump s.chan.txBuf.length) s fun t =>
      fsmState t.chan = .connectedIdle ∧
      emitted s t = [.write s.chan.txBuf] ++ (if s.chan.resumeUart = true then [.consoleResume] else []) ++ [.frameSent] := by
  obtain ⟨_, _, _, _, huser⟩ := (fsmState_user_iff _).mp hs
  have hrow := row_pump h (.inr hs)
  rwa [completionEvents, huser, if_pos rfl, ← List.append_assoc] at hrow

theorem row_close {s : State} (hs : fsmState s.chan ≠ .destroyed) :
    leadsTo .close s fun t => fsmState t.chan = .disconnected ∧
      emitted s t = [.setDispatcherOff] ++ (if s.chan.resumeUart = true then [.consoleResume] else []) ++ [.closed] := by
  have halive : s.chan.alive = true := by
    rw [Ne, fsmState_destroyed_iff] at hs
    simpa using hs
  exact ⟨_, exec_close_of_alive halive, (fsmState_disconnected_iff _).mpr ⟨halive, rfl⟩, emitted_commit _ _ _⟩

theorem row_destroy {s : State} (hs : fsmState s.chan = .disconnected) :
    leadsTo .destroy s fun t => fsmState t.chan = .destroyed ∧ emitted s t = [] := by
  obtain ⟨halive, hunarmed⟩ := (fsmState_disconnected_iff _).mp hs
  exact ⟨_, exec_destroy_of_unarmed halive hunarmed, (fsmState_destroyed_iff _).mpr rfl, emitted_commit _ _ _⟩

/-! ## The obligation -/

/-- Settles O59: the rows of the table in its order, and `Did.moves` for there being no others. -/
theorem namedStatesFollowTheTransitionTable : Obligations.NamedStatesFollowTheTransitionTable := by
  constructor
  · intro s payload console wait max avail h
    exact ⟨fun hs => row_create hs wait max, row_connect h, row_connect_again h, row_handshake_connecting h,
      row_feed_handshake h, fun hs hrx havail => row_dispatch_handshake h hs hrx havail, row_handshake_idle h, row_handshake_busy h,
      fun hs hopen f msg hf hmsg => row_data h hs hopen hf hmsg, fun hs => row_send hs payload console,
      fun hs => row_send_rejected h hs payload console, row_pump_reply h, row_pump_user h, row_close, row_destroy,
      fun hs i hcreate hsetup => exec_refused_of_dead ((fsmState_destroyed_iff _).mp hs) hcreate hsetup⟩
  · intro i s t h hexec
    obtain ⟨e, hdid, hchan, _⟩ := exec_leaves hexec
    rw [hchan]
    exact hdid.moves h

end Sys2Proof.Machine
end
